-- ==== Sys2Proof/Word.lean ====
section
/-! DEFINITION. The unsigned words of the block (spec/00_scope.md R9) and their widths. Every value is unsigned;
nothing is sign-extended anywhere (R9, R10). -/

namespace Sys2Proof

/-- A byte, the spec's `u8`: one target register, one byte on the transport (R9). -/
abbrev Byte := BitVec 8

/-- `u4`: envelope magnitudes, resonance, volume and the three flag sets (R9, R22 to R25). -/
abbrev U4 := BitVec 4

/-- `u11`: the filter cutoff (R24). -/
abbrev U11 := BitVec 11

/-- `u12`: the pulse width (R21). -/
abbrev U12 := BitVec 12

/-- `u16`: the frequency, and the immediate of a command word (R21, R80). -/
abbrev U16 := BitVec 16

/-- A command word `W`, 32 bits (R80). -/
abbrev CommandWord := BitVec 32

/-- A register frame written as the number `address_byte * 256 + data_byte` (R75): the byte sent first is bits 15:8. -/
abbrev FrameWord := BitVec 16

/-- `v[hi:lo]` of R10, given by its low bit and its width. -/
abbrev bits {n : Nat} (v : BitVec n) (lo width : Nat) : BitVec width := v.extractLsb' lo width

/-- `zext_N(v)` of R10. -/
abbrev zext {m : Nat} (n : Nat) (v : BitVec m) : BitVec n := v.setWidth n

end Sys2Proof
end

