-- ==== Sys2Proof/Config.lean ====
section
/-! DEFINITION. The configuration of the block: the fixed constants of spec/00_scope.md R6, the parameters of R7 and
R8 with their defaults and constraints, and the one free value of the model, the outcome of a capability call (R225). -/

namespace Sys2Proof

/-- `CONV` (R7): the addressing convention, the reset procedure and the unit of every delay, chosen together. -/
inductive Conv where
  | linear   -- `LINEAR`
  | shifted  -- `SHIFTED`
  deriving DecidableEq, Repr

/-- `FRAMING` (R8, decision D2): chip-select around every 2-byte frame, or once around a whole group write. -/
inductive Framing where
  | perRegister  -- `PER_REGISTER`
  | perGroup     -- `PER_GROUP`
  deriving DecidableEq, Repr

/-- The unit of a delay call: whole milliseconds or whole microseconds (R7, R29). -/
inductive DelayUnit where
  | ms
  | us
  deriving DecidableEq, Repr

/-- `SERIAL_FORMAT` (R8, decision D22): bit order, clock polarity and phase, and bit rate of the serial bus. It belongs
to the transport capability; no rule reads it and no definition of the model does. -/
structure SerialFormat where
  msbFirst : Bool
  clockPolarity : Bool
  clockPhase : Bool
  bitRate : Nat
  deriving DecidableEq, Repr

/-- The parameters of R7 and R8, each with its default (`CONV` has none). `SERIAL_FORMAT` and `CLOCK_HZ` have no value
in the spec and default to `none`. -/
structure Config where
  /-- `CONV` (R7), open. -/
  conv : Conv
  /-- `FRAMING`. -/
  framing : Framing := .perRegister
  /-- `T_RESET_LINE`, in milliseconds. -/
  tResetLine : Nat := 10
  /-- `T_RESET_SHIFTED`, in microseconds. -/
  tResetShifted : Nat := 12
  /-- `T_SETTLE`, in the unit of `CONV`; 0 is no delay call. -/
  tSettle : Nat := 0
  /-- `RESET_FRAME_INDEX`, bits 7:1 of the reset frame's address byte. -/
  resetFrameIndex : Nat := 0
  /-- `RESET_FRAME_DATA`, the reset frame's data byte. -/
  resetFrameData : Byte := 0
  /-- `SURFACE_ERRORS`. -/
  surfaceErrors : Bool := false
  /-- `HAS_RESET_LINE`. -/
  hasResetLine : Bool := decide (conv = .linear)
  /-- `SERIAL_FORMAT`, read by no rule. -/
  serialFormat : Option SerialFormat := none
  /-- `CLOCK_HZ`, read by no rule. -/
  clockHz : Option Nat := none
  deriving DecidableEq, Repr

/-- The constraints a configuration must meet to be well formed (R8). -/
def Config.wf (c : Config) : Bool :=
  decide (10 ≤ c.tResetLine) && decide (12 ≤ c.tResetShifted) && decide (c.resetFrameIndex ≤ 127) &&
    (decide (c.conv = .shifted) || c.hasResetLine)

/-- `N_VOICES` (R6). -/
def nVoices : Nat := 3

/-- `VOICE_LEN` (R6): bytes of a voice payload. -/
def voiceLen : Nat := 7

/-- `FILTER_LEN` (R6): bytes of the filter payload. -/
def filterLen : Nat := 4

/-- `VOICE_STRIDE` (R6). -/
def voiceStride : Nat := 7

/-- `FILTER_BASE` (R6, R161). -/
def filterBase : Nat := 21

/-- `N_REGS` (R6): logical indices 0 to 24. -/
def nRegs : Nat := 25

/-- The identity of a voice: "fixed identity 0..2" (R6, R20). -/
inductive VoiceIx where
  | v0
  | v1
  | v2
  deriving DecidableEq, Repr

/-- A parameter group (glossary of spec/00_scope.md): one voice, or the filter. -/
inductive Group where
  | voice (v : VoiceIx)
  | filter
  deriving DecidableEq, Repr

/-- FREE VALUE (spec/60_exceptions.md R225; spec/93_implementation_defined.md U13; log entry 8). Whether the capability call that is
event number `n` of the trace failed: "at every `TX`, `CS` and `RST` event the environment chooses *succeeded* or
*failed*, under no law". It has no body: a claim holds whatever the environment chooses. -/
opaque Config.callFails : Nat → Bool

end Sys2Proof
end

