-- ==== Sys2Proof/Syntax.lean ====
section
/-! DEFINITION. The instructions: one constructor for each of the 75 rows of spec/opcode_table.json, in the table's
order (24 command words, spec/30_encoding.md R80 to R85; 25 `FRAME_LINEAR` and 26 `FRAME_SHIFTED` frames, R75 to R78).
Operands have exactly the width the encoding gives them, so every operand value an encoding admits is here, the ones a
command answers with `RangeError` among them (R85). -/

namespace Sys2Proof

/-- One constructor per row of spec/opcode_table.json. `v` is `VSEL`, `imm` is `IMM`, `d` a data byte. -/
inductive Instr where
  /-- `RESET`, R195. -/
  | reset
  /-- `WRITE_VOICE`, R186. -/
  | writeVoice (v : BitVec 2)
  /-- `WRITE_FILTER`, R188. -/
  | writeFilter
  /-- `WRITE_ALL_VOICES`, R190. -/
  | writeAllVoices
  /-- `INITIALIZE`, R192. -/
  | initializeChip
  /-- `SETV.FREQ`, R110. -/
  | setvFreq (v : BitVec 2) (imm : U16)
  /-- `SETV.PW`, R111. -/
  | setvPw (v : BitVec 2) (imm : U16)
  /-- `SETV.ATTACK`, R112. -/
  | setvAttack (v : BitVec 2) (imm : U16)
  /-- `SETV.DECAY`, R113. -/
  | setvDecay (v : BitVec 2) (imm : U16)
  /-- `SETV.SUSTAIN`, R114. -/
  | setvSustain (v : BitVec 2) (imm : U16)
  /-- `SETV.RELEASE`, R115. -/
  | setvRelease (v : BitVec 2) (imm : U16)
  /-- `SETV.SHAPE`, R116. -/
  | setvShape (v : BitVec 2) (imm : U16)
  /-- `SETV.CFLAGS`, R117. -/
  | setvCflags (v : BitVec 2) (imm : U16)
  /-- `SETV.CFLAGS_ADD`, R118. -/
  | setvCflagsAdd (v : BitVec 2) (imm : U16)
  /-- `SETV.CFLAGS_REMOVE`, R119. -/
  | setvCflagsRemove (v : BitVec 2) (imm : U16)
  /-- `SETF.CUTOFF`, R120. -/
  | setfCutoff (imm : U16)
  /-- `SETF.RES`, R121. -/
  | setfRes (imm : U16)
  /-- `SETF.VOL`, R122. -/
  | setfVol (imm : U16)
  /-- `SETF.MODE`, R123. -/
  | setfMode (imm : U16)
  /-- `SETF.MODE_ADD`, R124. -/
  | setfModeAdd (imm : U16)
  /-- `SETF.MODE_REMOVE`, R125. -/
  | setfModeRemove (imm : U16)
  /-- `SETF.TARGETS`, R126. -/
  | setfTargets (imm : U16)
  /-- `SETF.TARGETS_ADD`, R127. -/
  | setfTargetsAdd (imm : U16)
  /-- `SETF.TARGETS_REMOVE`, R128. -/
  | setfTargetsRemove (imm : U16)
  /-- `FRAME_LINEAR.V0_FREQ_LO`, R31 and R76: logical index 0, address byte 0x00. -/
  | frameLinearV0FreqLo (d : Byte)
  /-- `FRAME_LINEAR.V0_FREQ_HI`, R32 and R76: logical index 1, address byte 0x01. -/
  | frameLinearV0FreqHi (d : Byte)
  /-- `FRAME_LINEAR.V0_PW_LO`, R33 and R76: logical index 2, address byte 0x02. -/
  | frameLinearV0PwLo (d : Byte)
  /-- `FRAME_LINEAR.V0_PW_HI`, R34 and R76: logical index 3, address byte 0x03. -/
  | frameLinearV0PwHi (d : Byte)
  /-- `FRAME_LINEAR.V0_CONTROL`, R35 and R76: logical index 4, address byte 0x04. -/
  | frameLinearV0Control (d : Byte)
  /-- `FRAME_LINEAR.V0_ATTACK_DECAY`, R36 and R76: logical index 5, address byte 0x05. -/
  | frameLinearV0AttackDecay (d : Byte)
  /-- `FRAME_LINEAR.V0_SUSTAIN_RELEASE`, R37 and R76: logical index 6, address byte 0x06. -/
  | frameLinearV0SustainRelease (d : Byte)
  /-- `FRAME_LINEAR.V1_FREQ_LO`, R31 and R76: logical index 7, address byte 0x07. -/
  | frameLinearV1FreqLo (d : Byte)
  /-- `FRAME_LINEAR.V1_FREQ_HI`, R32 and R76: logical index 8, address byte 0x08. -/
  | frameLinearV1FreqHi (d : Byte)
  /-- `FRAME_LINEAR.V1_PW_LO`, R33 and R76: logical index 9, address byte 0x09. -/
  | frameLinearV1PwLo (d : Byte)
  /-- `FRAME_LINEAR.V1_PW_HI`, R34 and R76: logical index 10, address byte 0x0A. -/
  | frameLinearV1PwHi (d : Byte)
  /-- `FRAME_LINEAR.V1_CONTROL`, R35 and R76: logical index 11, address byte 0x0B. -/
  | frameLinearV1Control (d : Byte)
  /-- `FRAME_LINEAR.V1_ATTACK_DECAY`, R36 and R76: logical index 12, address byte 0x0C. -/
  | frameLinearV1AttackDecay (d : Byte)
  /-- `FRAME_LINEAR.V1_SUSTAIN_RELEASE`, R37 and R76: logical index 13, address byte 0x0D. -/
  | frameLinearV1SustainRelease (d : Byte)
  /-- `FRAME_LINEAR.V2_FREQ_LO`, R31 and R76: logical index 14, address byte 0x0E. -/
  | frameLinearV2FreqLo (d : Byte)
  /-- `FRAME_LINEAR.V2_FREQ_HI`, R32 and R76: logical index 15, address byte 0x0F. -/
  | frameLinearV2FreqHi (d : Byte)
  /-- `FRAME_LINEAR.V2_PW_LO`, R33 and R76: logical index 16, address byte 0x10. -/
  | frameLinearV2PwLo (d : Byte)
  /-- `FRAME_LINEAR.V2_PW_HI`, R34 and R76: logical index 17, address byte 0x11. -/
  | frameLinearV2PwHi (d : Byte)
  /-- `FRAME_LINEAR.V2_CONTROL`, R35 and R76: logical index 18, address byte 0x12. -/
  | frameLinearV2Control (d : Byte)
  /-- `FRAME_LINEAR.V2_ATTACK_DECAY`, R36 and R76: logical index 19, address byte 0x13. -/
  | frameLinearV2AttackDecay (d : Byte)
  /-- `FRAME_LINEAR.V2_SUSTAIN_RELEASE`, R37 and R76: logical index 20, address byte 0x14. -/
  | frameLinearV2SustainRelease (d : Byte)
  /-- `FRAME_LINEAR.FC_LO`, R38 and R76: logical index 21, address byte 0x15. -/
  | frameLinearFcLo (d : Byte)
  /-- `FRAME_LINEAR.FC_HI`, R39 and R76: logical index 22, address byte 0x16. -/
  | frameLinearFcHi (d : Byte)
  /-- `FRAME_LINEAR.RES_ROUTE`, R40 and R76: logical index 23, address byte 0x17. -/
  | frameLinearResRoute (d : Byte)
  /-- `FRAME_LINEAR.MODE_VOL`, R41 and R76: logical index 24, address byte 0x18. -/
  | frameLinearModeVol (d : Byte)
  /-- `FRAME_SHIFTED.V0_FREQ_LO`, R31 and R77: logical index 0, address byte 0x00. -/
  | frameShiftedV0FreqLo (d : Byte)
  /-- `FRAME_SHIFTED.V0_FREQ_HI`, R32 and R77: logical index 1, address byte 0x02. -/
  | frameShiftedV0FreqHi (d : Byte)
  /-- `FRAME_SHIFTED.V0_PW_LO`, R33 and R77: logical index 2, address byte 0x04. -/
  | frameShiftedV0PwLo (d : Byte)
  /-- `FRAME_SHIFTED.V0_PW_HI`, R34 and R77: logical index 3, address byte 0x06. -/
  | frameShiftedV0PwHi (d : Byte)
  /-- `FRAME_SHIFTED.V0_CONTROL`, R35 and R77: logical index 4, address byte 0x08. -/
  | frameShiftedV0Control (d : Byte)
  /-- `FRAME_SHIFTED.V0_ATTACK_DECAY`, R36 and R77: logical index 5, address byte 0x0A. -/
  | frameShiftedV0AttackDecay (d : Byte)
  /-- `FRAME_SHIFTED.V0_SUSTAIN_RELEASE`, R37 and R77: logical index 6, address byte 0x0C. -/
  | frameShiftedV0SustainRelease (d : Byte)
  /-- `FRAME_SHIFTED.V1_FREQ_LO`, R31 and R77: logical index 7, address byte 0x0E. -/
  | frameShiftedV1FreqLo (d : Byte)
  /-- `FRAME_SHIFTED.V1_FREQ_HI`, R32 and R77: logical index 8, address byte 0x10. -/
  | frameShiftedV1FreqHi (d : Byte)
  /-- `FRAME_SHIFTED.V1_PW_LO`, R33 and R77: logical index 9, address byte 0x12. -/
  | frameShiftedV1PwLo (d : Byte)
  /-- `FRAME_SHIFTED.V1_PW_HI`, R34 and R77: logical index 10, address byte 0x14. -/
  | frameShiftedV1PwHi (d : Byte)
  /-- `FRAME_SHIFTED.V1_CONTROL`, R35 and R77: logical index 11, address byte 0x16. -/
  | frameShiftedV1Control (d : Byte)
  /-- `FRAME_SHIFTED.V1_ATTACK_DECAY`, R36 and R77: logical index 12, address byte 0x18. -/
  | frameShiftedV1AttackDecay (d : Byte)
  /-- `FRAME_SHIFTED.V1_SUSTAIN_RELEASE`, R37 and R77: logical index 13, address byte 0x1A. -/
  | frameShiftedV1SustainRelease (d : Byte)
  /-- `FRAME_SHIFTED.V2_FREQ_LO`, R31 and R77: logical index 14, address byte 0x1C. -/
  | frameShiftedV2FreqLo (d : Byte)
  /-- `FRAME_SHIFTED.V2_FREQ_HI`, R32 and R77: logical index 15, address byte 0x1E. -/
  | frameShiftedV2FreqHi (d : Byte)
  /-- `FRAME_SHIFTED.V2_PW_LO`, R33 and R77: logical index 16, address byte 0x20. -/
  | frameShiftedV2PwLo (d : Byte)
  /-- `FRAME_SHIFTED.V2_PW_HI`, R34 and R77: logical index 17, address byte 0x22. -/
  | frameShiftedV2PwHi (d : Byte)
  /-- `FRAME_SHIFTED.V2_CONTROL`, R35 and R77: logical index 18, address byte 0x24. -/
  | frameShiftedV2Control (d : Byte)
  /-- `FRAME_SHIFTED.V2_ATTACK_DECAY`, R36 and R77: logical index 19, address byte 0x26. -/
  | frameShiftedV2AttackDecay (d : Byte)
  /-- `FRAME_SHIFTED.V2_SUSTAIN_RELEASE`, R37 and R77: logical index 20, address byte 0x28. -/
  | frameShiftedV2SustainRelease (d : Byte)
  /-- `FRAME_SHIFTED.FC_LO`, R38 and R77: logical index 21, address byte 0x2A. -/
  | frameShiftedFcLo (d : Byte)
  /-- `FRAME_SHIFTED.FC_HI`, R39 and R77: logical index 22, address byte 0x2C. -/
  | frameShiftedFcHi (d : Byte)
  /-- `FRAME_SHIFTED.RES_ROUTE`, R40 and R77: logical index 23, address byte 0x2E. -/
  | frameShiftedResRoute (d : Byte)
  /-- `FRAME_SHIFTED.MODE_VOL`, R41 and R77: logical index 24, address byte 0x30. -/
  | frameShiftedModeVol (d : Byte)
  /-- `FRAME_SHIFTED.RESET`, R77 and R197: the reset frame, address byte `(index << 1) | 1`. -/
  | frameShiftedReset (index : BitVec 7) (d : Byte)
  deriving DecidableEq, Repr

/-- A word of one of the two kinds of table: a 32-bit command word, an entry of the program (spec/10_state.md R26, D18), or a
16-bit frame word, which the block sends inside a command (R75). -/
inductive Slot where
  | command (w : CommandWord)
  | frame (w : FrameWord)
  deriving DecidableEq, Repr

end Sys2Proof
end

