-- ==== Sys2Proof/Machine/State.lean ====
section
/-! DEFINITION. The state of the machine as plain data (spec/10_state.md), the reasons a step can stop, and the state
after the block's reset. -/

namespace Sys2Proof.Machine

/-- A level the block can command on a line (R28, R29). -/
inductive Level where
  | low
  | high
  deriving DecidableEq, Repr

/-- The record of a pin (R28): `UNDRIVEN` until the block first drives it, then the last level commanded. -/
inductive PinState where
  | undriven
  | driven (l : Level)
  deriving DecidableEq, Repr

/-- The phase of the driver (R27). `transmitting` and `resetting` hold only inside a command. -/
inductive Phase where
  | uninit
  | idle
  | transmitting
  | resetting
  deriving DecidableEq, Repr

/-- The waveform shape (R23, R105), a closed enumeration; codes 0 to 3 in this order. -/
inductive Shape where
  | triangle
  | sawtooth
  | square
  | noise
  deriving DecidableEq, Repr

/-- `Envelope` (R22): four independent 4-bit magnitudes. -/
structure Envelope where
  attack : U4
  decay : U4
  sustain : U4
  release : U4
  deriving DecidableEq, Repr

/-- `Control` (R23): one shape and the flag set `GATE` = bit 0, `SYNC` = 1, `RING` = 2, `TEST` = 3. -/
structure Control where
  shape : Shape
  flags : U4
  deriving DecidableEq, Repr

/-- One voice `S.V[v]` (R21). -/
structure Voice where
  freq : U16
  pw : U12
  env : Envelope
  ctrl : Control
  deriving DecidableEq, Repr

/-- The filter `S.F` (R24, R25): `mode` has `LP` = bit 0, `BP` = 1, `HP` = 2, `OFF3` = 3; `targets` has `V1` = bit 0,
`V2` = 1, `V3` = 2, `EXT` = 3. -/
structure Filter where
  cutoff : U11
  res : U4
  vol : U4
  mode : U4
  targets : U4
  deriving DecidableEq, Repr

/-- `ChipState` `S` (R20): three voices of fixed identity and one filter, by value. -/
structure ChipState where
  v0 : Voice
  v1 : Voice
  v2 : Voice
  filter : Filter
  deriving DecidableEq, Repr

/-- An event: one call on one capability (R29 (a)). -/
inductive Event where
  | cs (l : Level)
  | rst (l : Level)
  | tx (bytes : List Byte)
  | delay (n : Nat) (unit : DelayUnit)
  deriving DecidableEq, Repr

/-- The field identifiers a `RangeError` reports (R221). -/
inductive FieldId where
  | voiceIndex
  | pw
  | attack
  | decay
  | sustain
  | release
  | shape
  | cflags
  | cutoff
  | res
  | vol
  | mode
  | targets
  deriving DecidableEq, Repr

/-- The errors a command can return (R13, R220). -/
inductive CommandError where
  | rangeError (field : FieldId) (value : Nat)
  | illegalCommand (word : CommandWord)
  | transportError
  deriving DecidableEq, Repr

/-- The result of a command (R13). -/
inductive Result where
  | ok
  | err (e : CommandError)
  deriving DecidableEq, Repr

/-- The whole state. `cfg` is the configuration, which no step changes (R7, R165); it stands in the state because a step
takes nothing else (log entry 2). -/
structure State where
  /-- The configuration of the block (R6 to R8). -/
  cfg : Config
  /-- The program `P` of the host model, a list of command words (R26). -/
  program : List CommandWord
  /-- The counter `pc` of the host model (R26). -/
  pc : Nat
  /-- `ChipState` `S` (R20). -/
  chipState : ChipState
  /-- `phase` (R27). -/
  phase : Phase
  /-- `cs` (R28). -/
  cs : PinState
  /-- `rst` (R28). -/
  rst : PinState
  /-- The frame that the command under way hands to the transport next, `wire_addr(index_of(g, i))` and `p[i]` for the byte
  counter `i` of R26, or the reset frame of R197; transient, none between commands (log entry 22). -/
  due : Option FrameWord
  /-- The trace `T`, oldest event first (R29 (a)). -/
  trace : List Event
  /-- The chip image `CHIP` (R29 (b), R57): the known target registers; an index that is not listed is `unknown`. -/
  chip : List Host.Cell
  /-- The results the command port has returned, oldest first (R13, R182). -/
  results : List Result
  deriving DecidableEq, Repr

/-- Why the machine stops. -/
inductive Fault where
  /-- Raised by `step` when `pc` is past the last entry of the program: "`pc = n` ends the run" (R26). Safe: the run is
  over and the block waits for a command that never comes. -/
  | programEnd
  deriving DecidableEq, Repr

/-- Why a step has no meaning. -/
inductive Refusal where
  /-- Raised by an arm of `exec` for an instruction that has no meaning yet. Safe. -/
  | notModelled (mnemonic : String)
  /-- Raised by `step` for a configuration that breaks a constraint of R8, which "is refused by the model". Safe. -/
  | badConfiguration
  /-- Raised by a frame of one convention in a block built with the other one: "must not mix them within a single driver
  instance" (R7, R165; treatment "unrepresentable" of U6). `step` never meets it, because the decoder reads a frame in the
  block's own convention. Safe. -/
  | conventionMismatch
  /-- Raised by a frame the block never sends: its data byte breaks R90 (a) or (b), or it is a reset frame other than the
  block's own (R77), or its address byte "is never sent by the block" (R90 (d), R166). Safe. -/
  | frameNeverSent
  /-- Raised by a frame row when the command under way is not at that frame: only the commands reach a register (R50), and
  the block "has no way to write part of a group" (R55). Safe. -/
  | frameOutsideCommand
  /-- Raised by `step` in the middle of a command where no frame is due: a step executes a whole command (R26), and
  `TRANSMITTING` and `RESETTING` "hold only inside a command" (R27). Safe: no run comes here. -/
  | insideCommand
  deriving DecidableEq, Repr

/-- The reset value of every voice (R21, R44). -/
def Voice.reset : Voice where
  freq := 7217
  pw := 2048
  env := { attack := 0, decay := 0, sustain := 7, release := 0 }
  ctrl := { shape := .square, flags := 0 }

/-- The reset value of the filter (R24, R25, R44). -/
def Filter.reset : Filter where
  cutoff := 0
  res := 0
  vol := 7
  mode := 0
  targets := 0

/-- The reset value of `S` (R44). -/
def ChipState.reset : ChipState where
  v0 := Voice.reset
  v1 := Voice.reset
  v2 := Voice.reset
  filter := Filter.reset

/-- The event `NEW` (R180, R250) of a block built with configuration `c`: every piece of state at its reset value of
R44, no event, no pin driven. The program and the results are the host's and start empty (log entries 7 and 12). -/
def State.resetWith (c : Config) : State where
  cfg := c
  program := []
  pc := 0
  chipState := ChipState.reset
  phase := .uninit
  cs := .undriven
  rst := .undriven
  due := none
  trace := []
  chip := []
  results := []

/-- The machine after reset, with every parameter at its default. `CONV` has no default in the spec; `LINEAR` is chosen
here (DESIGN CHOICE, log entry 1). -/
def State.reset : State := State.resetWith { conv := .linear }

end Sys2Proof.Machine
end

