-- ==== Sys2Proof/Machine/Flags.lean ====
section
/-! DEFINITION. The flag sets (spec/40_value_types_and_state_update.md R103, R104). The block has no status flags or
condition codes (R42), so these sets are all the flag computation there is. -/

namespace Sys2Proof.Machine

/-- `has(s, f)` (R103). -/
def flagHas (s f : U4) : Bool := s &&& f != 0

/-- `add(s, t)` (R103), also "combine two sets". -/
def flagAdd (s t : U4) : U4 := s ||| t

/-- `remove(s, t)` (R103). -/
def flagRemove (s t : U4) : U4 := s &&& (~~~t &&& 0xF)

/-- `raw(s)` (R103). -/
def flagRaw (s : U4) : U4 := s

/-- The names of the control flags (R23, R103). -/
def flagGate : U4 := 1
def flagSync : U4 := 2
def flagRing : U4 := 4
def flagTest : U4 := 8

/-- The names of the filter modes (R24, R103; decision D19). -/
def modeLp : U4 := 1
def modeBp : U4 := 2
def modeHp : U4 := 4
def modeOff3 : U4 := 8

/-- The names of the routing targets (R25, R103). -/
def targetV1 : U4 := 1
def targetV2 : U4 := 2
def targetV3 : U4 := 4
def targetExt : U4 := 8

end Sys2Proof.Machine
end

