-- ==== Sys2Proof/Machine/AddressMap.lean ====
section
/-! DEFINITION. The register address map (spec/42_address_map.md): from a parameter group to its base index, from a
payload byte to its logical index, from a logical index to the address byte on the wire, and the inverses an observer
of the wire uses (R166). -/

namespace Sys2Proof.Machine

/-- The number of a voice, 0, 1 or 2 (R20). -/
def voiceNumber : VoiceIx → Nat
  | .v0 => 0
  | .v1 => 1
  | .v2 => 2

/-- `base(g)` (R160, R161), the same under both conventions. -/
def base : Group → Nat
  | .voice v => voiceNumber v * voiceStride
  | .filter => filterBase

/-- `index_of(g, i)` (R162). -/
def indexOf (g : Group) (i : Nat) : Nat := base g + i

/-- `wire_addr(idx)` (R163): the shift applies to the whole logical index. -/
def wireAddr (conv : Conv) (idx : Nat) : Byte :=
  match conv with
  | .linear => BitVec.ofNat 8 idx
  | .shifted => BitVec.ofNat 8 (idx <<< 1)

/-- `reset_addr` (R164) for a given `RESET_FRAME_INDEX`: bit 0 is the reset flag. It is used under `SHIFTED` only. -/
def resetAddr (index : Nat) : Byte := BitVec.ofNat 8 (index <<< 1) ||| 1

/-- What an address byte says to an observer of the wire (R166). -/
inductive Observed where
  | register (idx : Nat)  -- an ordinary write to logical index `idx`
  | resetSignal           -- bit 0 set under `SHIFTED`
  | neverSent             -- an address byte the block never sends
  deriving DecidableEq, Repr

/-- The inverse of `wire_addr` and `reset_addr` for an observer of the wire (R166). -/
def observe (conv : Conv) (a : Byte) : Observed :=
  match conv with
  | .linear => if a.toNat < nRegs then .register a.toNat else .neverSent
  | .shifted =>
    if a.getLsbD 0 then .resetSignal
    else if a.toNat >>> 1 < nRegs then .register (a.toNat >>> 1) else .neverSent

/-- The group a logical index belongs to and the number of its payload byte (R166): `k ≤ 20` is byte `k mod 7` of voice
`k div 7`, `21 ≤ k ≤ 24` is byte `k - 21` of the filter, and nothing else is a register. -/
def ownerOf (k : Nat) : Option (Group × Nat) :=
  if k < 7 then some (.voice .v0, k)
  else if k < 14 then some (.voice .v1, k - 7)
  else if k < 21 then some (.voice .v2, k - 14)
  else if k < 25 then some (.filter, k - 21)
  else none

end Sys2Proof.Machine
end

