-- ==== Sys2Proof/Machine/Operands.lean ====
section
/-! DEFINITION. The operand forms: constrained integers (spec/40_value_types_and_state_update.md R100 to R102), the shape
operand (R105), the voice index operand (R84 step 5), and access to a voice of `S` by its identity (R11, R20). -/

namespace Sys2Proof.Machine

/-- `mk_N(x)` (R100) for field `f`: fails when the value does not fit, never truncates (R102). -/
def mkValue (n : Nat) (f : FieldId) (x : Nat) : Except CommandError (BitVec n) :=
  if x < 2 ^ n then .ok (BitVec.ofNat n x) else .error (.rangeError f x)

/-- `val_N(u)` (R101). -/
def valOf {n : Nat} (u : BitVec n) : Nat := u.toNat

/-- `shape_of(c)` (R105). -/
def shapeOf (c : Nat) : Except CommandError Shape :=
  match c with
  | 0 => .ok .triangle
  | 1 => .ok .sawtooth
  | 2 => .ok .square
  | 3 => .ok .noise
  | _ => .error (.rangeError .shape c)

/-- `code(s)` (R105), the inverse of `shape_of`. -/
def shapeCode : Shape → Nat
  | .triangle => 0
  | .sawtooth => 1
  | .square => 2
  | .noise => 3

/-- The voice index operand `VSEL`: 3 is `RangeError(VOICE_INDEX, 3)` (R84 step 5, decision D11). -/
def voiceOf (v : BitVec 2) : Except CommandError VoiceIx :=
  match v.toNat with
  | 0 => .ok .v0
  | 1 => .ok .v1
  | 2 => .ok .v2
  | _ => .error (.rangeError .voiceIndex v.toNat)

/-- The frequency operand: a native 16-bit integer, every value legal (R100, R110). -/
def freqOperand (imm : U16) : Except CommandError U16 := .ok imm

/-- A 4-bit operand (R100). -/
def u4Operand (f : FieldId) (imm : U16) : Except CommandError U4 := mkValue 4 f imm.toNat

/-- The cutoff operand (R120). -/
def cutoffOperand (imm : U16) : Except CommandError U11 := mkValue 11 .cutoff imm.toNat

/-- The pulse width operand (R111). -/
def pwOperand (imm : U16) : Except CommandError U12 := mkValue 12 .pw imm.toNat

/-- The shape operand (R116). -/
def shapeOperand (imm : U16) : Except CommandError Shape := shapeOf imm.toNat

/-- `S.V[v]` (R11, R20). -/
def ChipState.voice (S : ChipState) : VoiceIx → Voice
  | .v0 => S.v0
  | .v1 => S.v1
  | .v2 => S.v2

/-- `S.V[v] <- x` (R11); the other voices and the filter are as they were (R20: no two fields alias). -/
def ChipState.setVoice (S : ChipState) (v : VoiceIx) (x : Voice) : ChipState :=
  match v with
  | .v0 => { S with v0 := x }
  | .v1 => { S with v1 := x }
  | .v2 => { S with v2 := x }

end Sys2Proof.Machine
end

