-- ==== Sys2Proof/Machine/Payload.lean ====
section
/-! DEFINITION. The payload encoder (spec/41_payload_encoder.md R140 to R148; formats spec/30_encoding.md R70 to R74) and
the inverses a chip-side observer uses (R147). -/

namespace Sys2Proof.Machine

/-- Two nibbles in a byte, the high one first: `(hi << 4) | lo` (R74, R148). -/
def packNibbles (hi lo : U4) : Byte := (zext 8 hi <<< 4) ||| zext 8 lo

/-- `enc_envelope(e)` (R141). -/
def encEnvelope (e : Envelope) : List Byte :=
  [packNibbles e.attack e.decay, packNibbles e.sustain e.release]

/-- `shape_bits(s)` (R142): one bit per shape. -/
def shapeBits : Shape → Byte
  | .triangle => 0x10
  | .sawtooth => 0x20
  | .square => 0x40
  | .noise => 0x80

/-- `enc_control(c)` (R142). -/
def encControl (c : Control) : Byte := shapeBits c.shape ||| zext 8 c.flags

/-- `enc_voice(x)` (R143): frequency and pulse width low part first, then the control byte and the envelope. -/
def encVoice (x : Voice) : List Byte :=
  [bits x.freq 0 8, bits x.freq 8 8, bits x.pw 0 8, zext 8 (bits x.pw 8 4), encControl x.ctrl] ++ encEnvelope x.env

/-- `enc_filter(f)` (R144): the cutoff is split 3 and 8; the mode set goes to bits 7:4 (R146). -/
def encFilter (f : Filter) : List Byte :=
  [zext 8 (bits f.cutoff 0 3), bits f.cutoff 3 8, packNibbles f.res f.targets, packNibbles f.mode f.vol]

/-- `dec_envelope` (R147). -/
def decEnvelope : List Byte → Option Envelope
  | [b0, b1] =>
    some { attack := bits b0 4 4, decay := bits b0 0 4, sustain := bits b1 4 4, release := bits b1 0 4 }
  | _ => none

/-- The shape whose `shape_bits` are the high nibble of `b`, when that nibble is one-hot (R147). -/
def decShape (b : Byte) : Option Shape :=
  match (b &&& 0xF0).toNat with
  | 0x10 => some .triangle
  | 0x20 => some .sawtooth
  | 0x40 => some .square
  | 0x80 => some .noise
  | _ => none

/-- `dec_control` (R147), defined when bits 7:4 are one-hot. -/
def decControl (b : Byte) : Option Control :=
  (decShape b).map fun s => { shape := s, flags := bits b 0 4 }

/-- `dec_voice` (R147), defined when bits 7:4 of byte 3 are zero and the control byte is one-hot. -/
def decVoice : List Byte → Option Voice
  | [b0, b1, b2, b3, b4, b5, b6] =>
    if bits b3 4 4 = 0 then
      match decControl b4, decEnvelope [b5, b6] with
      | some c, some e => some { freq := b1 ++ b0, pw := bits b3 0 4 ++ b2, env := e, ctrl := c }
      | _, _ => none
    else none
  | _ => none

/-- `dec_filter` (R147), defined when bits 7:3 of byte 0 are zero. -/
def decFilter : List Byte → Option Filter
  | [b0, b1, b2, b3] =>
    if bits b0 3 5 = 0 then
      some { cutoff := b1 ++ bits b0 0 3, res := bits b2 4 4, targets := bits b2 0 4, mode := bits b3 4 4, vol := bits b3 0 4 }
    else none
  | _ => none

/-- The payload of a group, from the state as it stands (R60 (a), R186, R188). -/
def payloadOf (S : ChipState) : Group → List Byte
  | .voice v => encVoice (S.voice v)
  | .filter => encFilter S.filter

end Sys2Proof.Machine
end

