-- ==== Sys2Proof/Machine/Ops.lean ====
section
/-! DEFINITION. The named operations over the state: field updates, the chip image as a memory (spec/20_memory.md R50 to
R57), emitting an event, the framing procedures of spec/43_transport_driver.md (R183 to R185, R196, R197), delivering a
result and raising an error (spec/60_exceptions.md R220 to R230), and the program model (spec/10_state.md R26). -/

namespace Sys2Proof.Machine

/-! ### Field updates (R11) -/

/-- `S <- x`. -/
def State.setChipState (s : State) (x : ChipState) : State := { s with chipState := x }

/-- `phase <- p`. -/
def State.setPhase (s : State) (p : Phase) : State := { s with phase := p }

/-- `cs <- l`. -/
def State.setCs (s : State) (l : Level) : State := { s with cs := .driven l }

/-- `rst <- l`. -/
def State.setRst (s : State) (l : Level) : State := { s with rst := .driven l }

/-- `pc <- n`; `pc` belongs to the host model (R26). -/
def State.setPc (s : State) (n : Nat) : State := { s with pc := n }

/-- The frame the command under way sends next, none when it is sent (R26). -/
def State.setDue (s : State) (f : Option FrameWord) : State := { s with due := f }

/-- The host loads a program (R26, log entry 7). -/
def State.setProgram (s : State) (p : List CommandWord) : State := { s with program := p }

/-- The configuration the block was built with (R7); no command uses this. -/
def State.setCfg (s : State) (c : Config) : State := { s with cfg := c }

/-- The command port returns `r` to the host (R13, R182). -/
def State.deliver (s : State) (r : Result) : State := { s with results := s.results ++ [r] }

/-! ### The chip image as a memory (R29 (b), R50, R57) -/

/-- The canonical form of the chip image: indices strictly rising, each one a register (0 to 24, R50). An index that is
not listed is `unknown`, which is no byte, so no listed entry repeats it. -/
def Memory.wf : List Host.Cell → Bool
  | [] => true
  | [c] => decide (c.1 < nRegs)
  | c :: d :: m => decide (c.1 < nRegs) && decide (c.1 < d.1) && Memory.wf (d :: m)

/-- `CHIP[k]`: the byte, or `none` for `unknown` (R29 (b)). For claims only: no command reads it (R51). -/
def Memory.read (k : Nat) : List Host.Cell → Option Byte
  | [] => none
  | c :: m => if c.1 = k then some c.2 else Memory.read k m

/-- `CHIP[k] <- d` (R57), keeping the canonical form. -/
def Memory.write (k : Nat) (d : Byte) : List Host.Cell → List Host.Cell
  | [] => [(k, d)]
  | c :: m =>
    if k < c.1 then (k, d) :: c :: m
    else if k = c.1 then (k, d) :: m
    else c :: Memory.write k d m

/-- `CHIP[k] <- unknown` for every `k` (R57). -/
def Memory.forget (_ : List Host.Cell) : List Host.Cell := []

/-- The chip image after an event (R57, log entry 9): a write is taken at the `TX`, a reset makes everything unknown. -/
def Memory.after (conv : Conv) (e : Event) (m : List Host.Cell) : List Host.Cell :=
  match e with
  | .tx [a, d] =>
    match observe conv a with
    | .register k => Memory.write k d m
    | .resetSignal => Memory.forget m
    | .neverSent => m
  | .tx _ => m
  | .rst .low => Memory.forget m
  | .rst .high => m
  | .cs _ => m
  | .delay _ _ => m

/-- Whether a frame is open after one more event: from a `TX` to the next `CS(HIGH)` (R57). -/
def frameOpenNext (isOpen : Bool) : Event → Bool
  | .tx _ => true
  | .cs .high => false
  | .cs .low => isOpen
  | .rst _ => isOpen
  | .delay _ _ => isOpen

/-- Whether the trace ends between a `TX` and its `CS(HIGH)`, where "a reader must not take the image ... as a statement about
the chip" (R57). -/
def frameOpen (es : List Event) : Bool := es.foldl frameOpenNext false

/-! ### Capability calls (R29, R182) -/

/-- `emit e`: one capability call, recorded in the trace; the chip image follows it (R11, R57). The call's outcome changes
nothing here (R226). -/
def emit (e : Event) (s : State) : State :=
  { s with trace := s.trace ++ [e], chip := Memory.after s.cfg.conv e s.chip }

/-- `emit CS(l); cs <- l` (R183). -/
def driveCs (l : Level) (s : State) : State := (emit (.cs l) s).setCs l

/-- `emit RST(l); rst <- l` (R196). -/
def driveRst (l : Level) (s : State) : State := (emit (.rst l) s).setRst l

/-- The unit of every delay of a convention (R7, R185). -/
def unitOf : Conv → DelayUnit
  | .linear => .ms
  | .shifted => .us

/-- `Settle()` (R185): no event at all when `T_SETTLE = 0`. -/
def settle (s : State) : State :=
  if 0 < s.cfg.tSettle then emit (.delay s.cfg.tSettle (unitOf s.cfg.conv)) s else s

/-- `emit TX([a, d])`: the frame that was due is handed to the transport (R183, R197). -/
def transmit (a d : Byte) (s : State) : State := (emit (.tx [a, d]) s).setDue none

/-- `emit TX([wire_addr(idx), d])` (R183): the frame of this register falls due and is sent. -/
def sendByte (idx : Nat) (d : Byte) (s : State) : State :=
  transmit (wireAddr s.cfg.conv idx) d (s.setDue (some (wireAddr s.cfg.conv idx ++ d)))

/-- `WriteReg(idx, d)` (R183), the only memory primitive `MemWrite(idx, 1, d)` (R12). -/
def writeReg (idx : Nat) (d : Byte) (s : State) : State :=
  settle (driveCs .high (sendByte idx d (driveCs .low s)))

/-- The `PER_REGISTER` loop of R184 from payload byte `i` on. -/
def writeRegs (g : Group) : Nat → List Byte → State → State
  | _, [], s => s
  | i, d :: p, s => writeRegs g (i + 1) p (writeReg (indexOf g i) d s)

/-- The `PER_GROUP` loop of R184 from payload byte `i` on. -/
def sendBytes (g : Group) : Nat → List Byte → State → State
  | _, [], s => s
  | i, d :: p, s => sendBytes g (i + 1) p (sendByte (indexOf g i) d s)

/-- The events of `WriteGroup(g, p)` between its two phase changes (R184). -/
def groupBurst (g : Group) (p : List Byte) (s : State) : State :=
  match s.cfg.framing with
  | .perRegister => writeRegs g 0 p s
  | .perGroup => settle (driveCs .high (sendBytes g 0 p (driveCs .low s)))

/-- The end of a command that made capability calls: `phase <- IDLE` (R181), and its counters are gone (R26). -/
def endCommand (s : State) : State := (s.setPhase .idle).setDue none

/-- `WriteGroup(g, p)` (R184). -/
def writeGroup (g : Group) (p : List Byte) (s : State) : State :=
  endCommand (groupBurst g p (s.setPhase .transmitting))

/-- Encode a group from the state as it stands and write it (R186, R188). -/
def sendGroup (g : Group) (s : State) : State := writeGroup g (payloadOf s.chipState g) s

/-- `WRITE_VOICE 0; WRITE_VOICE 1; WRITE_VOICE 2` (R190). -/
def sendVoices (s : State) : State :=
  sendGroup (.voice .v2) (sendGroup (.voice .v1) (sendGroup (.voice .v0) s))

/-- `ResetLine()` (R196). -/
def resetLine (s : State) : State :=
  driveRst .high (emit (.delay s.cfg.tResetLine .ms) (driveRst .low s))

/-- `emit TX([reset_addr, RESET_FRAME_DATA])` (R197): the block's one reset frame (R77) falls due and is sent. -/
def sendReset (s : State) : State :=
  transmit (resetAddr s.cfg.resetFrameIndex) s.cfg.resetFrameData
    (s.setDue (some (resetAddr s.cfg.resetFrameIndex ++ s.cfg.resetFrameData)))

/-- `ResetFrame()` (R197). -/
def resetFrame (s : State) : State :=
  driveCs .high (emit (.delay s.cfg.tResetShifted .us) (sendReset (driveCs .low s)))

/-- The reset procedure of the block's convention (R195). -/
def resetChip (s : State) : State :=
  match s.cfg.conv with
  | .linear => resetLine s
  | .shifted => resetFrame s

/-! ### Results and errors (R13, R220 to R230) -/

/-- The numeric code of a result (R220, decision D15). -/
def resultCode : Result → Nat
  | .ok => 0
  | .err (.rangeError _ _) => 1
  | .err (.illegalCommand _) => 2
  | .err .transportError => 3

/-- Whether the call of an event may fail (R182, R225): every call but a delay. -/
def fallible : Event → Bool
  | .delay _ _ => false
  | .cs _ => true
  | .rst _ => true
  | .tx _ => true

/-- Whether the environment failed one of the calls `es`, the first of which is event number `n` of the trace (R225). -/
def anyCallFailed : Nat → List Event → Bool
  | _, [] => false
  | n, e :: es => (fallible e && Config.callFails n) || anyCallFailed (n + 1) es

/-- The result of a command that ran to its end (R227): `before` and `after` are the states around its calls. -/
def transportResult (before after : State) : Result :=
  if before.cfg.surfaceErrors && anyCallFailed before.trace.length (after.trace.drop before.trace.length)
  then .err .transportError else .ok

/-- A command that made capability calls delivers its result and is complete (R227, R230). -/
def finish (before after : State) : Host.Outcome State Fault Refusal :=
  .next (after.deliver (transportResult before after))

/-- A command that made none returns `Ok` (R106). -/
def complete (s : State) : Host.Outcome State Fault Refusal := .next (s.deliver .ok)

/-- `raise E(info)` (R13, R229): error entry is the delivery of the result and nothing else; no state is saved, no mode
changes, control goes nowhere, and the host takes the next command. There is no return from an error (R230). -/
def raise (e : CommandError) (s : State) : Host.Outcome State Fault Refusal := .next (s.deliver (.err e))

/-- Run `k` on a checked operand, or raise the operand's error before anything is written (R221). -/
def withOperand {α : Type} (x : Except CommandError α) (s : State) (k : α → Host.Outcome State Fault Refusal) :
    Host.Outcome State Fault Refusal :=
  match x with
  | .ok a => k a
  | .error e => raise e s

/-- The template of `SETV.*` (R106): the voice index is checked, then the immediate (R228), then one field of one voice
is written. -/
def updateVoice {α : Type} (v : BitVec 2) (x : Except CommandError α) (f : Voice → α → Voice) (s : State) :
    Host.Outcome State Fault Refusal :=
  withOperand (voiceOf v) s fun ix => withOperand x s fun a =>
    complete (s.setChipState (s.chipState.setVoice ix (f (s.chipState.voice ix) a)))

/-- The template of `SETF.*` (R106): the immediate is checked, then one field of the filter is written. -/
def updateFilter {α : Type} (x : Except CommandError α) (f : Filter → α → Filter) (s : State) :
    Host.Outcome State Fault Refusal :=
  withOperand x s fun a => complete (s.setChipState { s.chipState with filter := f s.chipState.filter a })

/-! ### Frames inside a command (R50, R183, R197) -/

/-- Whether the command under way is at the point where it sends the frame `f`: the phase is `p`, chip-select is low, and
`f` is due (R26, R27, R199 (b)). -/
def atFrame (p : Phase) (f : FrameWord) (s : State) : Bool :=
  decide (s.phase = p) && decide (s.cs = .driven .low) && decide (s.due = some f)

/-- A register frame row of convention `conv`: the line `emit TX([wire_addr(idx), d])` of the write command under way (R183,
R184). `ok` says whether the block writes the byte `d` to that register at all (R90 (a) and (b)). Nothing but the command
that is at this frame sends it (R50, R55, log entry 4), and a block of the other convention never does (log entry 5). -/
def runFrame (conv : Conv) (idx : Nat) (ok : Bool) (d : Byte) (s : State) : Host.Outcome State Fault Refusal :=
  if s.cfg.conv ≠ conv then .refused .conventionMismatch
  else if ok = false then .refused .frameNeverSent
  else if atFrame .transmitting (wireAddr conv idx ++ d) s then .next (transmit (wireAddr conv idx) d s)
  else .refused .frameOutsideCommand

/-- Whether `index` and `d` are the open bits of the block's own reset frame (R77, R164). -/
def ownResetFrame (index : BitVec 7) (d : Byte) (c : Config) : Bool :=
  decide (index.toNat = c.resetFrameIndex) && decide (d = c.resetFrameData)

/-- The reset frame row: the line `emit TX([reset_addr, RESET_FRAME_DATA])` of the `RESET` under way (R197). The one frame
with bit 0 of the address byte set is the block's own (R77), sent only in `RESET` (R90 (c)). -/
def runResetFrame (index : BitVec 7) (d : Byte) (s : State) : Host.Outcome State Fault Refusal :=
  if s.cfg.conv ≠ .shifted then .refused .conventionMismatch
  else if ownResetFrame index d s.cfg = false then .refused .frameNeverSent
  else if atFrame .resetting (resetAddr index.toNat ++ d) s then .next (transmit (resetAddr index.toNat) d s)
  else .refused .frameOutsideCommand

/-! ### The program model (R26) -/

/-- The phases that "hold only inside a command" (R27). -/
def Phase.transient : Phase → Bool
  | .uninit => false
  | .idle => false
  | .transmitting => true
  | .resetting => true

/-- Inside a command with no frame due: no step starts here, since a step executes a whole command (R26, log entry 22). -/
def insideCommand (s : State) : Bool := s.due.isNone && s.phase.transient

/-- What runs next: the frame that is due, inside a command; else the command word at `pc`, if the run has not ended. -/
def fetch (s : State) : Option Slot :=
  match s.due with
  | some f => some (.frame f)
  | none => (s.program[s.pc]?).map .command

/-- `pc <- pc + 1` after a command, whatever its result (R26); a frame is a part of one and moves nothing. -/
def advance (slot : Slot) : Host.Outcome State Fault Refusal → Host.Outcome State Fault Refusal
  | .next t =>
    match slot with
    | .command _ => .next (t.setPc (t.pc + 1))
    | .frame _ => .next t
  | .fault r => .fault r
  | .refused r => .refused r

/-- What a word that is no instruction does: a command word that R84 steps 1 to 4 reject raises `IllegalCommand` (R91,
R222); a frame word whose address byte "is never sent by the block" is refused (R90 (d), R166, log entry 6). -/
def undecoded (slot : Slot) (s : State) : Host.Outcome State Fault Refusal :=
  match slot with
  | .command w => raise (.illegalCommand w) s
  | .frame _ => .refused .frameNeverSent

end Sys2Proof.Machine
end

