-- ==== Sys2Proof/Machine/FilterUpdate.lean ====
section
/-! DEFINITION. The meanings of `SETF.*` (spec/40_value_types_and_state_update.md R120 to R128). -/

namespace Sys2Proof.Machine

/-- `SETF.CUTOFF imm` (R120). -/
def execSetfCutoff (imm : U16) (s : State) : Host.Outcome State Fault Refusal :=
  updateFilter (cutoffOperand imm) (fun f a => { f with cutoff := a }) s

/-- `SETF.RES imm` (R121). -/
def execSetfRes (imm : U16) (s : State) : Host.Outcome State Fault Refusal :=
  updateFilter (u4Operand .res imm) (fun f a => { f with res := a }) s

/-- `SETF.VOL imm` (R122). -/
def execSetfVol (imm : U16) (s : State) : Host.Outcome State Fault Refusal :=
  updateFilter (u4Operand .vol imm) (fun f a => { f with vol := a }) s

/-- `SETF.MODE imm` (R123): all 16 sets are legal. -/
def execSetfMode (imm : U16) (s : State) : Host.Outcome State Fault Refusal :=
  updateFilter (u4Operand .mode imm) (fun f a => { f with mode := a }) s

/-- `SETF.MODE_ADD imm` (R124). -/
def execSetfModeAdd (imm : U16) (s : State) : Host.Outcome State Fault Refusal :=
  updateFilter (u4Operand .mode imm) (fun f a => { f with mode := flagAdd f.mode a }) s

/-- `SETF.MODE_REMOVE imm` (R125). -/
def execSetfModeRemove (imm : U16) (s : State) : Host.Outcome State Fault Refusal :=
  updateFilter (u4Operand .mode imm) (fun f a => { f with mode := flagRemove f.mode a }) s

/-- `SETF.TARGETS imm` (R126). -/
def execSetfTargets (imm : U16) (s : State) : Host.Outcome State Fault Refusal :=
  updateFilter (u4Operand .targets imm) (fun f a => { f with targets := a }) s

/-- `SETF.TARGETS_ADD imm` (R127). -/
def execSetfTargetsAdd (imm : U16) (s : State) : Host.Outcome State Fault Refusal :=
  updateFilter (u4Operand .targets imm) (fun f a => { f with targets := flagAdd f.targets a }) s

/-- `SETF.TARGETS_REMOVE imm` (R128). -/
def execSetfTargetsRemove (imm : U16) (s : State) : Host.Outcome State Fault Refusal :=
  updateFilter (u4Operand .targets imm) (fun f a => { f with targets := flagRemove f.targets a }) s

end Sys2Proof.Machine
end

