-- ==== Sys2Proof/WellFormed.lean ====
section
/-! DEFINITION. Well-formed instructions: those whose operands are in the ranges of the table's `operands` column
(spec/30_encoding.md R82, R83: `v` 0 to 2, `imm` in the field's legal range) and, for a frame, whose data byte is one the
block can send there (R90 (a) and (b)). An ill-formed command still has a word and a meaning: it answers `RangeError`
(R221). An ill-formed frame is one the block never sends, but its word is still that row's (the table's mask). -/

namespace Sys2Proof

/-- "fixed identity 0..2": `VSEL = 3` names no voice (R84 step 5). -/
def voiceOk (v : BitVec 2) : Bool := v != 3

/-- The range check of R130: the 16-bit immediate against the field's maximum. -/
def immOk (max : Nat) (imm : U16) : Bool := decide (imm.toNat ≤ max)

/-- R90 (a): bits 7:4 of a `PW_HI` byte are zero. -/
def pwHiOk (d : Byte) : Bool := d.extractLsb' 4 4 == 0

/-- R90 (b): the high nibble of a `CONTROL` byte is one-hot. -/
def controlOk (d : Byte) : Bool :=
  let n := d.extractLsb' 4 4
  n == 1 || n == 2 || n == 4 || n == 8

/-- R90 (a): bits 7:3 of the `FC_LO` byte are zero. -/
def fcLoOk (d : Byte) : Bool := d.extractLsb' 3 5 == 0

/-- The table's operand ranges, one arm per row. -/
def Instr.wellFormed : Instr → Bool
  | .reset => true
  | .writeVoice v => voiceOk v
  | .writeFilter => true
  | .writeAllVoices => true
  | .initializeChip => true
  | .setvFreq v _ => voiceOk v
  | .setvPw v imm => voiceOk v && immOk 4095 imm
  | .setvAttack v imm => voiceOk v && immOk 15 imm
  | .setvDecay v imm => voiceOk v && immOk 15 imm
  | .setvSustain v imm => voiceOk v && immOk 15 imm
  | .setvRelease v imm => voiceOk v && immOk 15 imm
  | .setvShape v imm => voiceOk v && immOk 3 imm
  | .setvCflags v imm => voiceOk v && immOk 15 imm
  | .setvCflagsAdd v imm => voiceOk v && immOk 15 imm
  | .setvCflagsRemove v imm => voiceOk v && immOk 15 imm
  | .setfCutoff imm => immOk 2047 imm
  | .setfRes imm => immOk 15 imm
  | .setfVol imm => immOk 15 imm
  | .setfMode imm => immOk 15 imm
  | .setfModeAdd imm => immOk 15 imm
  | .setfModeRemove imm => immOk 15 imm
  | .setfTargets imm => immOk 15 imm
  | .setfTargetsAdd imm => immOk 15 imm
  | .setfTargetsRemove imm => immOk 15 imm
  | .frameLinearV0FreqLo _ => true
  | .frameLinearV0FreqHi _ => true
  | .frameLinearV0PwLo _ => true
  | .frameLinearV0PwHi d => pwHiOk d
  | .frameLinearV0Control d => controlOk d
  | .frameLinearV0AttackDecay _ => true
  | .frameLinearV0SustainRelease _ => true
  | .frameLinearV1FreqLo _ => true
  | .frameLinearV1FreqHi _ => true
  | .frameLinearV1PwLo _ => true
  | .frameLinearV1PwHi d => pwHiOk d
  | .frameLinearV1Control d => controlOk d
  | .frameLinearV1AttackDecay _ => true
  | .frameLinearV1SustainRelease _ => true
  | .frameLinearV2FreqLo _ => true
  | .frameLinearV2FreqHi _ => true
  | .frameLinearV2PwLo _ => true
  | .frameLinearV2PwHi d => pwHiOk d
  | .frameLinearV2Control d => controlOk d
  | .frameLinearV2AttackDecay _ => true
  | .frameLinearV2SustainRelease _ => true
  | .frameLinearFcLo d => fcLoOk d
  | .frameLinearFcHi _ => true
  | .frameLinearResRoute _ => true
  | .frameLinearModeVol _ => true
  | .frameShiftedV0FreqLo _ => true
  | .frameShiftedV0FreqHi _ => true
  | .frameShiftedV0PwLo _ => true
  | .frameShiftedV0PwHi d => pwHiOk d
  | .frameShiftedV0Control d => controlOk d
  | .frameShiftedV0AttackDecay _ => true
  | .frameShiftedV0SustainRelease _ => true
  | .frameShiftedV1FreqLo _ => true
  | .frameShiftedV1FreqHi _ => true
  | .frameShiftedV1PwLo _ => true
  | .frameShiftedV1PwHi d => pwHiOk d
  | .frameShiftedV1Control d => controlOk d
  | .frameShiftedV1AttackDecay _ => true
  | .frameShiftedV1SustainRelease _ => true
  | .frameShiftedV2FreqLo _ => true
  | .frameShiftedV2FreqHi _ => true
  | .frameShiftedV2PwLo _ => true
  | .frameShiftedV2PwHi d => pwHiOk d
  | .frameShiftedV2Control d => controlOk d
  | .frameShiftedV2AttackDecay _ => true
  | .frameShiftedV2SustainRelease _ => true
  | .frameShiftedFcLo d => fcLoOk d
  | .frameShiftedFcHi _ => true
  | .frameShiftedResRoute _ => true
  | .frameShiftedModeVol _ => true
  | .frameShiftedReset _ _ => true

end Sys2Proof
end

