-- ==== Sys2Proof/Machine/Frames.lean ====
section
/-! DEFINITION. The meanings of the frame rows of spec/opcode_table.json (spec/30_encoding.md R75 to R78). A frame is what
the block hands to the transport inside a command: a register frame is the `TX` line of `WriteReg` and `WriteGroup`
(spec/43_transport_driver.md R183, R184), the reset frame that of `ResetFrame()` (R197). -/

namespace Sys2Proof.Machine

/-- `FRAME_LINEAR.V0_FREQ_LO` (R31). -/
def execFrameLinearV0FreqLo (d : Byte) (s : State) : Host.Outcome State Fault Refusal := runFrame .linear 0 true d s

/-- `FRAME_LINEAR.V0_FREQ_HI` (R32). -/
def execFrameLinearV0FreqHi (d : Byte) (s : State) : Host.Outcome State Fault Refusal := runFrame .linear 1 true d s

/-- `FRAME_LINEAR.V0_PW_LO` (R33). -/
def execFrameLinearV0PwLo (d : Byte) (s : State) : Host.Outcome State Fault Refusal := runFrame .linear 2 true d s

/-- `FRAME_LINEAR.V0_PW_HI` (R34). -/
def execFrameLinearV0PwHi (d : Byte) (s : State) : Host.Outcome State Fault Refusal := runFrame .linear 3 (pwHiOk d) d s

/-- `FRAME_LINEAR.V0_CONTROL` (R35). -/
def execFrameLinearV0Control (d : Byte) (s : State) : Host.Outcome State Fault Refusal := runFrame .linear 4 (controlOk d) d s

/-- `FRAME_LINEAR.V0_ATTACK_DECAY` (R36). -/
def execFrameLinearV0AttackDecay (d : Byte) (s : State) : Host.Outcome State Fault Refusal := runFrame .linear 5 true d s

/-- `FRAME_LINEAR.V0_SUSTAIN_RELEASE` (R37). -/
def execFrameLinearV0SustainRelease (d : Byte) (s : State) : Host.Outcome State Fault Refusal := runFrame .linear 6 true d s

/-- `FRAME_LINEAR.V1_FREQ_LO` (R31). -/
def execFrameLinearV1FreqLo (d : Byte) (s : State) : Host.Outcome State Fault Refusal := runFrame .linear 7 true d s

/-- `FRAME_LINEAR.V1_FREQ_HI` (R32). -/
def execFrameLinearV1FreqHi (d : Byte) (s : State) : Host.Outcome State Fault Refusal := runFrame .linear 8 true d s

/-- `FRAME_LINEAR.V1_PW_LO` (R33). -/
def execFrameLinearV1PwLo (d : Byte) (s : State) : Host.Outcome State Fault Refusal := runFrame .linear 9 true d s

/-- `FRAME_LINEAR.V1_PW_HI` (R34). -/
def execFrameLinearV1PwHi (d : Byte) (s : State) : Host.Outcome State Fault Refusal := runFrame .linear 10 (pwHiOk d) d s

/-- `FRAME_LINEAR.V1_CONTROL` (R35). -/
def execFrameLinearV1Control (d : Byte) (s : State) : Host.Outcome State Fault Refusal := runFrame .linear 11 (controlOk d) d s

/-- `FRAME_LINEAR.V1_ATTACK_DECAY` (R36). -/
def execFrameLinearV1AttackDecay (d : Byte) (s : State) : Host.Outcome State Fault Refusal := runFrame .linear 12 true d s

/-- `FRAME_LINEAR.V1_SUSTAIN_RELEASE` (R37). -/
def execFrameLinearV1SustainRelease (d : Byte) (s : State) : Host.Outcome State Fault Refusal := runFrame .linear 13 true d s

/-- `FRAME_LINEAR.V2_FREQ_LO` (R31). -/
def execFrameLinearV2FreqLo (d : Byte) (s : State) : Host.Outcome State Fault Refusal := runFrame .linear 14 true d s

/-- `FRAME_LINEAR.V2_FREQ_HI` (R32). -/
def execFrameLinearV2FreqHi (d : Byte) (s : State) : Host.Outcome State Fault Refusal := runFrame .linear 15 true d s

/-- `FRAME_LINEAR.V2_PW_LO` (R33). -/
def execFrameLinearV2PwLo (d : Byte) (s : State) : Host.Outcome State Fault Refusal := runFrame .linear 16 true d s

/-- `FRAME_LINEAR.V2_PW_HI` (R34). -/
def execFrameLinearV2PwHi (d : Byte) (s : State) : Host.Outcome State Fault Refusal := runFrame .linear 17 (pwHiOk d) d s

/-- `FRAME_LINEAR.V2_CONTROL` (R35). -/
def execFrameLinearV2Control (d : Byte) (s : State) : Host.Outcome State Fault Refusal := runFrame .linear 18 (controlOk d) d s

/-- `FRAME_LINEAR.V2_ATTACK_DECAY` (R36). -/
def execFrameLinearV2AttackDecay (d : Byte) (s : State) : Host.Outcome State Fault Refusal := runFrame .linear 19 true d s

/-- `FRAME_LINEAR.V2_SUSTAIN_RELEASE` (R37). -/
def execFrameLinearV2SustainRelease (d : Byte) (s : State) : Host.Outcome State Fault Refusal := runFrame .linear 20 true d s

/-- `FRAME_LINEAR.FC_LO` (R38). -/
def execFrameLinearFcLo (d : Byte) (s : State) : Host.Outcome State Fault Refusal := runFrame .linear 21 (fcLoOk d) d s

/-- `FRAME_LINEAR.FC_HI` (R39). -/
def execFrameLinearFcHi (d : Byte) (s : State) : Host.Outcome State Fault Refusal := runFrame .linear 22 true d s

/-- `FRAME_LINEAR.RES_ROUTE` (R40). -/
def execFrameLinearResRoute (d : Byte) (s : State) : Host.Outcome State Fault Refusal := runFrame .linear 23 true d s

/-- `FRAME_LINEAR.MODE_VOL` (R41). -/
def execFrameLinearModeVol (d : Byte) (s : State) : Host.Outcome State Fault Refusal := runFrame .linear 24 true d s

/-- `FRAME_SHIFTED.V0_FREQ_LO` (R31). -/
def execFrameShiftedV0FreqLo (d : Byte) (s : State) : Host.Outcome State Fault Refusal := runFrame .shifted 0 true d s

/-- `FRAME_SHIFTED.V0_FREQ_HI` (R32). -/
def execFrameShiftedV0FreqHi (d : Byte) (s : State) : Host.Outcome State Fault Refusal := runFrame .shifted 1 true d s

/-- `FRAME_SHIFTED.V0_PW_LO` (R33). -/
def execFrameShiftedV0PwLo (d : Byte) (s : State) : Host.Outcome State Fault Refusal := runFrame .shifted 2 true d s

/-- `FRAME_SHIFTED.V0_PW_HI` (R34). -/
def execFrameShiftedV0PwHi (d : Byte) (s : State) : Host.Outcome State Fault Refusal := runFrame .shifted 3 (pwHiOk d) d s

/-- `FRAME_SHIFTED.V0_CONTROL` (R35). -/
def execFrameShiftedV0Control (d : Byte) (s : State) : Host.Outcome State Fault Refusal := runFrame .shifted 4 (controlOk d) d s

/-- `FRAME_SHIFTED.V0_ATTACK_DECAY` (R36). -/
def execFrameShiftedV0AttackDecay (d : Byte) (s : State) : Host.Outcome State Fault Refusal := runFrame .shifted 5 true d s

/-- `FRAME_SHIFTED.V0_SUSTAIN_RELEASE` (R37). -/
def execFrameShiftedV0SustainRelease (d : Byte) (s : State) : Host.Outcome State Fault Refusal := runFrame .shifted 6 true d s

/-- `FRAME_SHIFTED.V1_FREQ_LO` (R31). -/
def execFrameShiftedV1FreqLo (d : Byte) (s : State) : Host.Outcome State Fault Refusal := runFrame .shifted 7 true d s

/-- `FRAME_SHIFTED.V1_FREQ_HI` (R32). -/
def execFrameShiftedV1FreqHi (d : Byte) (s : State) : Host.Outcome State Fault Refusal := runFrame .shifted 8 true d s

/-- `FRAME_SHIFTED.V1_PW_LO` (R33). -/
def execFrameShiftedV1PwLo (d : Byte) (s : State) : Host.Outcome State Fault Refusal := runFrame .shifted 9 true d s

/-- `FRAME_SHIFTED.V1_PW_HI` (R34). -/
def execFrameShiftedV1PwHi (d : Byte) (s : State) : Host.Outcome State Fault Refusal := runFrame .shifted 10 (pwHiOk d) d s

/-- `FRAME_SHIFTED.V1_CONTROL` (R35). -/
def execFrameShiftedV1Control (d : Byte) (s : State) : Host.Outcome State Fault Refusal := runFrame .shifted 11 (controlOk d) d s

/-- `FRAME_SHIFTED.V1_ATTACK_DECAY` (R36). -/
def execFrameShiftedV1AttackDecay (d : Byte) (s : State) : Host.Outcome State Fault Refusal := runFrame .shifted 12 true d s

/-- `FRAME_SHIFTED.V1_SUSTAIN_RELEASE` (R37). -/
def execFrameShiftedV1SustainRelease (d : Byte) (s : State) : Host.Outcome State Fault Refusal := runFrame .shifted 13 true d s

/-- `FRAME_SHIFTED.V2_FREQ_LO` (R31). -/
def execFrameShiftedV2FreqLo (d : Byte) (s : State) : Host.Outcome State Fault Refusal := runFrame .shifted 14 true d s

/-- `FRAME_SHIFTED.V2_FREQ_HI` (R32). -/
def execFrameShiftedV2FreqHi (d : Byte) (s : State) : Host.Outcome State Fault Refusal := runFrame .shifted 15 true d s

/-- `FRAME_SHIFTED.V2_PW_LO` (R33). -/
def execFrameShiftedV2PwLo (d : Byte) (s : State) : Host.Outcome State Fault Refusal := runFrame .shifted 16 true d s

/-- `FRAME_SHIFTED.V2_PW_HI` (R34). -/
def execFrameShiftedV2PwHi (d : Byte) (s : State) : Host.Outcome State Fault Refusal := runFrame .shifted 17 (pwHiOk d) d s

/-- `FRAME_SHIFTED.V2_CONTROL` (R35). -/
def execFrameShiftedV2Control (d : Byte) (s : State) : Host.Outcome State Fault Refusal := runFrame .shifted 18 (controlOk d) d s

/-- `FRAME_SHIFTED.V2_ATTACK_DECAY` (R36). -/
def execFrameShiftedV2AttackDecay (d : Byte) (s : State) : Host.Outcome State Fault Refusal := runFrame .shifted 19 true d s

/-- `FRAME_SHIFTED.V2_SUSTAIN_RELEASE` (R37). -/
def execFrameShiftedV2SustainRelease (d : Byte) (s : State) : Host.Outcome State Fault Refusal := runFrame .shifted 20 true d s

/-- `FRAME_SHIFTED.FC_LO` (R38). -/
def execFrameShiftedFcLo (d : Byte) (s : State) : Host.Outcome State Fault Refusal := runFrame .shifted 21 (fcLoOk d) d s

/-- `FRAME_SHIFTED.FC_HI` (R39). -/
def execFrameShiftedFcHi (d : Byte) (s : State) : Host.Outcome State Fault Refusal := runFrame .shifted 22 true d s

/-- `FRAME_SHIFTED.RES_ROUTE` (R40). -/
def execFrameShiftedResRoute (d : Byte) (s : State) : Host.Outcome State Fault Refusal := runFrame .shifted 23 true d s

/-- `FRAME_SHIFTED.MODE_VOL` (R41). -/
def execFrameShiftedModeVol (d : Byte) (s : State) : Host.Outcome State Fault Refusal := runFrame .shifted 24 true d s

/-- `FRAME_SHIFTED.RESET` (R77, R197). -/
def execFrameShiftedReset (index : BitVec 7) (d : Byte) (s : State) : Host.Outcome State Fault Refusal :=
  runResetFrame index d s

end Sys2Proof.Machine
end

