-- ==== Sys2Proof/Machine/Transport.lean ====
section
/-! DEFINITION. The meanings of the write commands and of `RESET` (spec/43_transport_driver.md R186 to R198). All are
accepted in `UNINIT` and in `IDLE` alike and leave the phase `IDLE` (R181). -/

namespace Sys2Proof.Machine

/-- `RESET` (R195): `S` is not changed (R198). -/
def execReset (s : State) : Host.Outcome State Fault Refusal :=
  finish s (endCommand (resetChip (s.setPhase .resetting)))

/-- `WRITE_VOICE v` (R186). -/
def execWriteVoice (v : BitVec 2) (s : State) : Host.Outcome State Fault Refusal :=
  withOperand (voiceOf v) s fun ix => finish s (sendGroup (.voice ix) s)

/-- `WRITE_FILTER` (R188). -/
def execWriteFilter (s : State) : Host.Outcome State Fault Refusal := finish s (sendGroup .filter s)

/-- `WRITE_ALL_VOICES` (R190): voices 0, 1, 2 in that order. -/
def execWriteAllVoices (s : State) : Host.Outcome State Fault Refusal := finish s (sendVoices s)

/-- `INITIALIZE` (R192): `WRITE_ALL_VOICES` then `WRITE_FILTER`. -/
def execInitialize (s : State) : Host.Outcome State Fault Refusal := finish s (sendGroup .filter (sendVoices s))

end Sys2Proof.Machine
end

