-- ==== Sys2Proof/Machine/VoiceUpdate.lean ====
section
/-! DEFINITION. The meanings of `SETV.*` (spec/40_value_types_and_state_update.md R110 to R119). -/

namespace Sys2Proof.Machine

/-- `SETV.FREQ v, imm` (R110). -/
def execSetvFreq (v : BitVec 2) (imm : U16) (s : State) : Host.Outcome State Fault Refusal :=
  updateVoice v (freqOperand imm) (fun x a => { x with freq := a }) s

/-- `SETV.PW v, imm` (R111). -/
def execSetvPw (v : BitVec 2) (imm : U16) (s : State) : Host.Outcome State Fault Refusal :=
  updateVoice v (pwOperand imm) (fun x a => { x with pw := a }) s

/-- `SETV.ATTACK v, imm` (R112). -/
def execSetvAttack (v : BitVec 2) (imm : U16) (s : State) : Host.Outcome State Fault Refusal :=
  updateVoice v (u4Operand .attack imm) (fun x a => { x with env := { x.env with attack := a } }) s

/-- `SETV.DECAY v, imm` (R113). -/
def execSetvDecay (v : BitVec 2) (imm : U16) (s : State) : Host.Outcome State Fault Refusal :=
  updateVoice v (u4Operand .decay imm) (fun x a => { x with env := { x.env with decay := a } }) s

/-- `SETV.SUSTAIN v, imm` (R114). -/
def execSetvSustain (v : BitVec 2) (imm : U16) (s : State) : Host.Outcome State Fault Refusal :=
  updateVoice v (u4Operand .sustain imm) (fun x a => { x with env := { x.env with sustain := a } }) s

/-- `SETV.RELEASE v, imm` (R115). -/
def execSetvRelease (v : BitVec 2) (imm : U16) (s : State) : Host.Outcome State Fault Refusal :=
  updateVoice v (u4Operand .release imm) (fun x a => { x with env := { x.env with release := a } }) s

/-- `SETV.SHAPE v, imm` (R116). -/
def execSetvShape (v : BitVec 2) (imm : U16) (s : State) : Host.Outcome State Fault Refusal :=
  updateVoice v (shapeOperand imm) (fun x a => { x with ctrl := { x.ctrl with shape := a } }) s

/-- `SETV.CFLAGS v, imm` (R117): assigns the whole set. -/
def execSetvCflags (v : BitVec 2) (imm : U16) (s : State) : Host.Outcome State Fault Refusal :=
  updateVoice v (u4Operand .cflags imm) (fun x a => { x with ctrl := { x.ctrl with flags := a } }) s

/-- `SETV.CFLAGS_ADD v, imm` (R118). -/
def execSetvCflagsAdd (v : BitVec 2) (imm : U16) (s : State) : Host.Outcome State Fault Refusal :=
  updateVoice v (u4Operand .cflags imm)
    (fun x a => { x with ctrl := { x.ctrl with flags := flagAdd x.ctrl.flags a } }) s

/-- `SETV.CFLAGS_REMOVE v, imm` (R119). -/
def execSetvCflagsRemove (v : BitVec 2) (imm : U16) (s : State) : Host.Outcome State Fault Refusal :=
  updateVoice v (u4Operand .cflags imm)
    (fun x a => { x with ctrl := { x.ctrl with flags := flagRemove x.ctrl.flags a } }) s

end Sys2Proof.Machine
end

