-- ==== Sys2Proof/Machine/Dispatch.lean ====
section
/-! DEFINITION. One arm per constructor of `Instr`, each one call of the instruction's meaning. -/

namespace Sys2Proof.Machine

def exec (i : Instr) (s : State) : Host.Outcome State Fault Refusal :=
  match i with
  | .reset => Sys2Proof.Machine.execReset s
  | .writeVoice v => Sys2Proof.Machine.execWriteVoice v s
  | .writeFilter => Sys2Proof.Machine.execWriteFilter s
  | .writeAllVoices => Sys2Proof.Machine.execWriteAllVoices s
  | .initializeChip => Sys2Proof.Machine.execInitialize s
  | .setvFreq v imm => Sys2Proof.Machine.execSetvFreq v imm s
  | .setvPw v imm => Sys2Proof.Machine.execSetvPw v imm s
  | .setvAttack v imm => Sys2Proof.Machine.execSetvAttack v imm s
  | .setvDecay v imm => Sys2Proof.Machine.execSetvDecay v imm s
  | .setvSustain v imm => Sys2Proof.Machine.execSetvSustain v imm s
  | .setvRelease v imm => Sys2Proof.Machine.execSetvRelease v imm s
  | .setvShape v imm => Sys2Proof.Machine.execSetvShape v imm s
  | .setvCflags v imm => Sys2Proof.Machine.execSetvCflags v imm s
  | .setvCflagsAdd v imm => Sys2Proof.Machine.execSetvCflagsAdd v imm s
  | .setvCflagsRemove v imm => Sys2Proof.Machine.execSetvCflagsRemove v imm s
  | .setfCutoff imm => Sys2Proof.Machine.execSetfCutoff imm s
  | .setfRes imm => Sys2Proof.Machine.execSetfRes imm s
  | .setfVol imm => Sys2Proof.Machine.execSetfVol imm s
  | .setfMode imm => Sys2Proof.Machine.execSetfMode imm s
  | .setfModeAdd imm => Sys2Proof.Machine.execSetfModeAdd imm s
  | .setfModeRemove imm => Sys2Proof.Machine.execSetfModeRemove imm s
  | .setfTargets imm => Sys2Proof.Machine.execSetfTargets imm s
  | .setfTargetsAdd imm => Sys2Proof.Machine.execSetfTargetsAdd imm s
  | .setfTargetsRemove imm => Sys2Proof.Machine.execSetfTargetsRemove imm s
  | .frameLinearV0FreqLo d => Sys2Proof.Machine.execFrameLinearV0FreqLo d s
  | .frameLinearV0FreqHi d => Sys2Proof.Machine.execFrameLinearV0FreqHi d s
  | .frameLinearV0PwLo d => Sys2Proof.Machine.execFrameLinearV0PwLo d s
  | .frameLinearV0PwHi d => Sys2Proof.Machine.execFrameLinearV0PwHi d s
  | .frameLinearV0Control d => Sys2Proof.Machine.execFrameLinearV0Control d s
  | .frameLinearV0AttackDecay d => Sys2Proof.Machine.execFrameLinearV0AttackDecay d s
  | .frameLinearV0SustainRelease d => Sys2Proof.Machine.execFrameLinearV0SustainRelease d s
  | .frameLinearV1FreqLo d => Sys2Proof.Machine.execFrameLinearV1FreqLo d s
  | .frameLinearV1FreqHi d => Sys2Proof.Machine.execFrameLinearV1FreqHi d s
  | .frameLinearV1PwLo d => Sys2Proof.Machine.execFrameLinearV1PwLo d s
  | .frameLinearV1PwHi d => Sys2Proof.Machine.execFrameLinearV1PwHi d s
  | .frameLinearV1Control d => Sys2Proof.Machine.execFrameLinearV1Control d s
  | .frameLinearV1AttackDecay d => Sys2Proof.Machine.execFrameLinearV1AttackDecay d s
  | .frameLinearV1SustainRelease d => Sys2Proof.Machine.execFrameLinearV1SustainRelease d s
  | .frameLinearV2FreqLo d => Sys2Proof.Machine.execFrameLinearV2FreqLo d s
  | .frameLinearV2FreqHi d => Sys2Proof.Machine.execFrameLinearV2FreqHi d s
  | .frameLinearV2PwLo d => Sys2Proof.Machine.execFrameLinearV2PwLo d s
  | .frameLinearV2PwHi d => Sys2Proof.Machine.execFrameLinearV2PwHi d s
  | .frameLinearV2Control d => Sys2Proof.Machine.execFrameLinearV2Control d s
  | .frameLinearV2AttackDecay d => Sys2Proof.Machine.execFrameLinearV2AttackDecay d s
  | .frameLinearV2SustainRelease d => Sys2Proof.Machine.execFrameLinearV2SustainRelease d s
  | .frameLinearFcLo d => Sys2Proof.Machine.execFrameLinearFcLo d s
  | .frameLinearFcHi d => Sys2Proof.Machine.execFrameLinearFcHi d s
  | .frameLinearResRoute d => Sys2Proof.Machine.execFrameLinearResRoute d s
  | .frameLinearModeVol d => Sys2Proof.Machine.execFrameLinearModeVol d s
  | .frameShiftedV0FreqLo d => Sys2Proof.Machine.execFrameShiftedV0FreqLo d s
  | .frameShiftedV0FreqHi d => Sys2Proof.Machine.execFrameShiftedV0FreqHi d s
  | .frameShiftedV0PwLo d => Sys2Proof.Machine.execFrameShiftedV0PwLo d s
  | .frameShiftedV0PwHi d => Sys2Proof.Machine.execFrameShiftedV0PwHi d s
  | .frameShiftedV0Control d => Sys2Proof.Machine.execFrameShiftedV0Control d s
  | .frameShiftedV0AttackDecay d => Sys2Proof.Machine.execFrameShiftedV0AttackDecay d s
  | .frameShiftedV0SustainRelease d => Sys2Proof.Machine.execFrameShiftedV0SustainRelease d s
  | .frameShiftedV1FreqLo d => Sys2Proof.Machine.execFrameShiftedV1FreqLo d s
  | .frameShiftedV1FreqHi d => Sys2Proof.Machine.execFrameShiftedV1FreqHi d s
  | .frameShiftedV1PwLo d => Sys2Proof.Machine.execFrameShiftedV1PwLo d s
  | .frameShiftedV1PwHi d => Sys2Proof.Machine.execFrameShiftedV1PwHi d s
  | .frameShiftedV1Control d => Sys2Proof.Machine.execFrameShiftedV1Control d s
  | .frameShiftedV1AttackDecay d => Sys2Proof.Machine.execFrameShiftedV1AttackDecay d s
  | .frameShiftedV1SustainRelease d => Sys2Proof.Machine.execFrameShiftedV1SustainRelease d s
  | .frameShiftedV2FreqLo d => Sys2Proof.Machine.execFrameShiftedV2FreqLo d s
  | .frameShiftedV2FreqHi d => Sys2Proof.Machine.execFrameShiftedV2FreqHi d s
  | .frameShiftedV2PwLo d => Sys2Proof.Machine.execFrameShiftedV2PwLo d s
  | .frameShiftedV2PwHi d => Sys2Proof.Machine.execFrameShiftedV2PwHi d s
  | .frameShiftedV2Control d => Sys2Proof.Machine.execFrameShiftedV2Control d s
  | .frameShiftedV2AttackDecay d => Sys2Proof.Machine.execFrameShiftedV2AttackDecay d s
  | .frameShiftedV2SustainRelease d => Sys2Proof.Machine.execFrameShiftedV2SustainRelease d s
  | .frameShiftedFcLo d => Sys2Proof.Machine.execFrameShiftedFcLo d s
  | .frameShiftedFcHi d => Sys2Proof.Machine.execFrameShiftedFcHi d s
  | .frameShiftedResRoute d => Sys2Proof.Machine.execFrameShiftedResRoute d s
  | .frameShiftedModeVol d => Sys2Proof.Machine.execFrameShiftedModeVol d s
  | .frameShiftedReset index d => Sys2Proof.Machine.execFrameShiftedReset index d s

end Sys2Proof.Machine
end

