-- ==== Sys2Proof/Decode.lean ====
section
/-! DEFINITION. The decoder and the encoder of command words (spec/30_encoding.md R80 to R85, R91) and of register frames
(R75 to R78, R90). Both are total: a word is an instruction of its table or is rejected by name. -/

namespace Sys2Proof

/-! ### Command words -/

/-- `OP`, bits 31:28 (R80). -/
def opField (w : CommandWord) : BitVec 4 := bits w 28 4

/-- `VSEL`, bits 27:26 (R80). -/
def vselField (w : CommandWord) : BitVec 2 := bits w 26 2

/-- `FSEL`, bits 25:21 (R80). -/
def fselField (w : CommandWord) : BitVec 5 := bits w 21 5

/-- `ZERO`, bits 20:16 (R80). -/
def zeroField (w : CommandWord) : BitVec 5 := bits w 16 5

/-- `IMM`, bits 15:0 (R80). -/
def immField (w : CommandWord) : U16 := bits w 0 16

/-- Why a word is no instruction. The first five are the steps 1 to 4 of R84; the last is R90 (d). -/
inductive Reject where
  | illegalOp             -- step 1: `OP` is 0x0 or 0x8 to 0xF
  | zeroNotZero           -- step 1: `ZERO ≠ 0`
  | operandNotZero        -- steps 2 and 3: a field the command does not use is not zero
  | noSuchField           -- step 4: `FSEL` names no field
  | voiceOnFilter         -- step 4: `VSEL ≠ 0` on a filter field
  | addressNeverSent      -- an address byte the block never sends
  deriving DecidableEq, Repr

/-- The voice fields by `FSEL` (R82). -/
def voiceFields : List (BitVec 2 → U16 → Instr) :=
  [.setvFreq, .setvPw, .setvAttack, .setvDecay,
   .setvSustain, .setvRelease, .setvShape, .setvCflags,
   .setvCflagsAdd, .setvCflagsRemove]

/-- The filter fields by `FSEL` (R83). -/
def filterFields : List (U16 → Instr) :=
  [.setfCutoff, .setfRes, .setfVol, .setfMode,
   .setfModeAdd, .setfModeRemove, .setfTargets, .setfTargetsAdd,
   .setfTargetsRemove]

/-- A command without operands: `VSEL`, `FSEL` and `IMM` must be zero (R84 step 2). -/
def decodePlain (i : Instr) (w : CommandWord) : Except Reject Instr :=
  if vselField w = 0 ∧ fselField w = 0 ∧ immField w = 0 then .ok i else .error .operandNotZero

/-- `WRITE_VOICE`: `FSEL` and `IMM` must be zero (R84 step 3). -/
def decodeWriteVoice (w : CommandWord) : Except Reject Instr :=
  if fselField w = 0 ∧ immField w = 0 then .ok (.writeVoice (vselField w)) else .error .operandNotZero

/-- `SETV.*` (R82, R84 step 4). -/
def decodeSetv (w : CommandWord) : Except Reject Instr :=
  match voiceFields[(fselField w).toNat]? with
  | some f => .ok (f (vselField w) (immField w))
  | none => .error .noSuchField

/-- `SETF.*` (R83, R84 step 4). -/
def decodeSetf (w : CommandWord) : Except Reject Instr :=
  match filterFields[(fselField w).toNat]? with
  | some f => if vselField w = 0 then .ok (f (immField w)) else .error .voiceOnFilter
  | none => .error .noSuchField

/-- The decoder of command words: R84 steps 1 to 4, by the `OP` map of R81. Steps 5 and 6 (the range errors) belong to
the meanings: such a word "matches the row and then raises `RangeError`" (R85). -/
def decodeCommand (w : CommandWord) : Except Reject Instr :=
  if zeroField w ≠ 0 then .error .zeroNotZero
  else match (opField w).toNat with
    | 1 => decodePlain .reset w
    | 2 => decodeWriteVoice w
    | 3 => decodePlain .writeFilter w
    | 4 => decodePlain .writeAllVoices w
    | 5 => decodePlain .initializeChip w
    | 6 => decodeSetv w
    | 7 => decodeSetf w
    | _ => .error .illegalOp

/-! ### Register frames -/

/-- The `FRAME_LINEAR` rows of voice 0, in index order (R78). -/
def linearFramesV0 : List (Byte → Instr) :=
  [.frameLinearV0FreqLo, .frameLinearV0FreqHi, .frameLinearV0PwLo, .frameLinearV0PwHi, .frameLinearV0Control, .frameLinearV0AttackDecay, .frameLinearV0SustainRelease]

/-- The `FRAME_LINEAR` rows of voice 1, in index order (R78). -/
def linearFramesV1 : List (Byte → Instr) :=
  [.frameLinearV1FreqLo, .frameLinearV1FreqHi, .frameLinearV1PwLo, .frameLinearV1PwHi, .frameLinearV1Control, .frameLinearV1AttackDecay, .frameLinearV1SustainRelease]

/-- The `FRAME_LINEAR` rows of voice 2, in index order (R78). -/
def linearFramesV2 : List (Byte → Instr) :=
  [.frameLinearV2FreqLo, .frameLinearV2FreqHi, .frameLinearV2PwLo, .frameLinearV2PwHi, .frameLinearV2Control, .frameLinearV2AttackDecay, .frameLinearV2SustainRelease]

/-- The `FRAME_LINEAR` rows of the filter, in index order (R78). -/
def linearFramesFilter : List (Byte → Instr) :=
  [.frameLinearFcLo, .frameLinearFcHi, .frameLinearResRoute, .frameLinearModeVol]

/-- The `FRAME_LINEAR` rows by logical index, 0 to 24 (R78). -/
def linearFrames : List (Byte → Instr) := linearFramesV0 ++ linearFramesV1 ++ linearFramesV2 ++ linearFramesFilter

/-- The `FRAME_SHIFTED` rows of voice 0, in index order (R78). -/
def shiftedFramesV0 : List (Byte → Instr) :=
  [.frameShiftedV0FreqLo, .frameShiftedV0FreqHi, .frameShiftedV0PwLo, .frameShiftedV0PwHi, .frameShiftedV0Control, .frameShiftedV0AttackDecay, .frameShiftedV0SustainRelease]

/-- The `FRAME_SHIFTED` rows of voice 1, in index order (R78). -/
def shiftedFramesV1 : List (Byte → Instr) :=
  [.frameShiftedV1FreqLo, .frameShiftedV1FreqHi, .frameShiftedV1PwLo, .frameShiftedV1PwHi, .frameShiftedV1Control, .frameShiftedV1AttackDecay, .frameShiftedV1SustainRelease]

/-- The `FRAME_SHIFTED` rows of voice 2, in index order (R78). -/
def shiftedFramesV2 : List (Byte → Instr) :=
  [.frameShiftedV2FreqLo, .frameShiftedV2FreqHi, .frameShiftedV2PwLo, .frameShiftedV2PwHi, .frameShiftedV2Control, .frameShiftedV2AttackDecay, .frameShiftedV2SustainRelease]

/-- The `FRAME_SHIFTED` rows of the filter, in index order (R78). -/
def shiftedFramesFilter : List (Byte → Instr) :=
  [.frameShiftedFcLo, .frameShiftedFcHi, .frameShiftedResRoute, .frameShiftedModeVol]

/-- The `FRAME_SHIFTED` rows by logical index, 0 to 24 (R78). -/
def shiftedFrames : List (Byte → Instr) := shiftedFramesV0 ++ shiftedFramesV1 ++ shiftedFramesV2 ++ shiftedFramesFilter

/-- The address byte of a frame, sent first (R75, D30). -/
def frameAddress (w : FrameWord) : Byte := bits w 8 8

/-- The data byte of a frame (R75). -/
def frameData (w : FrameWord) : Byte := bits w 0 8

/-- The register frame row of a convention at logical index `k`. -/
def registerFrame (conv : Conv) (k : Nat) : Option (Byte → Instr) :=
  match conv with
  | .linear => linearFrames[k]?
  | .shifted => shiftedFrames[k]?

/-- The decoder of frames in a block of convention `conv` (R76, R77, R166). -/
def decodeFrame (conv : Conv) (w : FrameWord) : Except Reject Instr :=
  match Machine.observe conv (frameAddress w) with
  | .resetSignal => .ok (.frameShiftedReset (bits (frameAddress w) 1 7) (frameData w))
  | .neverSent => .error .addressNeverSent
  | .register k =>
    match registerFrame conv k with
    | some f => .ok (f (frameData w))
    | none => .error .addressNeverSent

/-- The decoder of a word in a block of convention `conv`. -/
def decodeSlot (conv : Conv) : Slot → Except Reject Instr
  | .command w => decodeCommand w
  | .frame w => decodeFrame conv w

/-! ### The encoder -/

/-- A command word from its fields, `ZERO` being 0 (R80). -/
def commandWord (op : BitVec 4) (v : BitVec 2) (fsel : BitVec 5) (imm : U16) : CommandWord :=
  op ++ v ++ fsel ++ (0 : BitVec 5) ++ imm

/-- The word of `SETV.<field>` with field number `fsel` (R82). -/
def setvWord (fsel : BitVec 5) (v : BitVec 2) (imm : U16) : Slot := .command (commandWord 6 v fsel imm)

/-- The word of `SETF.<field>` with field number `fsel` (R83). -/
def setfWord (fsel : BitVec 5) (imm : U16) : Slot := .command (commandWord 7 0 fsel imm)

/-- The frame of a register write (R75 to R77). -/
def frameOf (conv : Conv) (k : Nat) (d : Byte) : Slot := .frame (Machine.wireAddr conv k ++ d)

/-- The encoder: the word or the frame of an instruction (R75 to R83). -/
def encode : Instr → Slot
  | .reset => .command (commandWord 1 0 0 0)
  | .writeVoice v => .command (commandWord 2 v 0 0)
  | .writeFilter => .command (commandWord 3 0 0 0)
  | .writeAllVoices => .command (commandWord 4 0 0 0)
  | .initializeChip => .command (commandWord 5 0 0 0)
  | .setvFreq v imm => setvWord 0 v imm
  | .setvPw v imm => setvWord 1 v imm
  | .setvAttack v imm => setvWord 2 v imm
  | .setvDecay v imm => setvWord 3 v imm
  | .setvSustain v imm => setvWord 4 v imm
  | .setvRelease v imm => setvWord 5 v imm
  | .setvShape v imm => setvWord 6 v imm
  | .setvCflags v imm => setvWord 7 v imm
  | .setvCflagsAdd v imm => setvWord 8 v imm
  | .setvCflagsRemove v imm => setvWord 9 v imm
  | .setfCutoff imm => setfWord 0 imm
  | .setfRes imm => setfWord 1 imm
  | .setfVol imm => setfWord 2 imm
  | .setfMode imm => setfWord 3 imm
  | .setfModeAdd imm => setfWord 4 imm
  | .setfModeRemove imm => setfWord 5 imm
  | .setfTargets imm => setfWord 6 imm
  | .setfTargetsAdd imm => setfWord 7 imm
  | .setfTargetsRemove imm => setfWord 8 imm
  | .frameLinearV0FreqLo d => frameOf .linear 0 d
  | .frameLinearV0FreqHi d => frameOf .linear 1 d
  | .frameLinearV0PwLo d => frameOf .linear 2 d
  | .frameLinearV0PwHi d => frameOf .linear 3 d
  | .frameLinearV0Control d => frameOf .linear 4 d
  | .frameLinearV0AttackDecay d => frameOf .linear 5 d
  | .frameLinearV0SustainRelease d => frameOf .linear 6 d
  | .frameLinearV1FreqLo d => frameOf .linear 7 d
  | .frameLinearV1FreqHi d => frameOf .linear 8 d
  | .frameLinearV1PwLo d => frameOf .linear 9 d
  | .frameLinearV1PwHi d => frameOf .linear 10 d
  | .frameLinearV1Control d => frameOf .linear 11 d
  | .frameLinearV1AttackDecay d => frameOf .linear 12 d
  | .frameLinearV1SustainRelease d => frameOf .linear 13 d
  | .frameLinearV2FreqLo d => frameOf .linear 14 d
  | .frameLinearV2FreqHi d => frameOf .linear 15 d
  | .frameLinearV2PwLo d => frameOf .linear 16 d
  | .frameLinearV2PwHi d => frameOf .linear 17 d
  | .frameLinearV2Control d => frameOf .linear 18 d
  | .frameLinearV2AttackDecay d => frameOf .linear 19 d
  | .frameLinearV2SustainRelease d => frameOf .linear 20 d
  | .frameLinearFcLo d => frameOf .linear 21 d
  | .frameLinearFcHi d => frameOf .linear 22 d
  | .frameLinearResRoute d => frameOf .linear 23 d
  | .frameLinearModeVol d => frameOf .linear 24 d
  | .frameShiftedV0FreqLo d => frameOf .shifted 0 d
  | .frameShiftedV0FreqHi d => frameOf .shifted 1 d
  | .frameShiftedV0PwLo d => frameOf .shifted 2 d
  | .frameShiftedV0PwHi d => frameOf .shifted 3 d
  | .frameShiftedV0Control d => frameOf .shifted 4 d
  | .frameShiftedV0AttackDecay d => frameOf .shifted 5 d
  | .frameShiftedV0SustainRelease d => frameOf .shifted 6 d
  | .frameShiftedV1FreqLo d => frameOf .shifted 7 d
  | .frameShiftedV1FreqHi d => frameOf .shifted 8 d
  | .frameShiftedV1PwLo d => frameOf .shifted 9 d
  | .frameShiftedV1PwHi d => frameOf .shifted 10 d
  | .frameShiftedV1Control d => frameOf .shifted 11 d
  | .frameShiftedV1AttackDecay d => frameOf .shifted 12 d
  | .frameShiftedV1SustainRelease d => frameOf .shifted 13 d
  | .frameShiftedV2FreqLo d => frameOf .shifted 14 d
  | .frameShiftedV2FreqHi d => frameOf .shifted 15 d
  | .frameShiftedV2PwLo d => frameOf .shifted 16 d
  | .frameShiftedV2PwHi d => frameOf .shifted 17 d
  | .frameShiftedV2Control d => frameOf .shifted 18 d
  | .frameShiftedV2AttackDecay d => frameOf .shifted 19 d
  | .frameShiftedV2SustainRelease d => frameOf .shifted 20 d
  | .frameShiftedFcLo d => frameOf .shifted 21 d
  | .frameShiftedFcHi d => frameOf .shifted 22 d
  | .frameShiftedResRoute d => frameOf .shifted 23 d
  | .frameShiftedModeVol d => frameOf .shifted 24 d
  | .frameShiftedReset index d => .frame (Machine.resetAddr index.toNat ++ d)

/-- The convention whose table a frame row belongs to; a command belongs to neither (R76, R77, R92). -/
def Instr.conv? : Instr → Option Conv
  | .reset | .writeVoice _ | .writeFilter | .writeAllVoices
  | .initializeChip | .setvFreq _ _ | .setvPw _ _ | .setvAttack _ _
  | .setvDecay _ _ | .setvSustain _ _ | .setvRelease _ _ | .setvShape _ _
  | .setvCflags _ _ | .setvCflagsAdd _ _ | .setvCflagsRemove _ _ | .setfCutoff _
  | .setfRes _ | .setfVol _ | .setfMode _ | .setfModeAdd _
  | .setfModeRemove _ | .setfTargets _ | .setfTargetsAdd _ | .setfTargetsRemove _ =>
    none
  | .frameLinearV0FreqLo _ | .frameLinearV0FreqHi _ | .frameLinearV0PwLo _ | .frameLinearV0PwHi _
  | .frameLinearV0Control _ | .frameLinearV0AttackDecay _ | .frameLinearV0SustainRelease _ | .frameLinearV1FreqLo _
  | .frameLinearV1FreqHi _ | .frameLinearV1PwLo _ | .frameLinearV1PwHi _ | .frameLinearV1Control _
  | .frameLinearV1AttackDecay _ | .frameLinearV1SustainRelease _ | .frameLinearV2FreqLo _ | .frameLinearV2FreqHi _
  | .frameLinearV2PwLo _ | .frameLinearV2PwHi _ | .frameLinearV2Control _ | .frameLinearV2AttackDecay _
  | .frameLinearV2SustainRelease _ | .frameLinearFcLo _ | .frameLinearFcHi _ | .frameLinearResRoute _
  | .frameLinearModeVol _ =>
    some .linear
  | .frameShiftedV0FreqLo _ | .frameShiftedV0FreqHi _ | .frameShiftedV0PwLo _ | .frameShiftedV0PwHi _
  | .frameShiftedV0Control _ | .frameShiftedV0AttackDecay _ | .frameShiftedV0SustainRelease _ | .frameShiftedV1FreqLo _
  | .frameShiftedV1FreqHi _ | .frameShiftedV1PwLo _ | .frameShiftedV1PwHi _ | .frameShiftedV1Control _
  | .frameShiftedV1AttackDecay _ | .frameShiftedV1SustainRelease _ | .frameShiftedV2FreqLo _ | .frameShiftedV2FreqHi _
  | .frameShiftedV2PwLo _ | .frameShiftedV2PwHi _ | .frameShiftedV2Control _ | .frameShiftedV2AttackDecay _
  | .frameShiftedV2SustainRelease _ | .frameShiftedFcLo _ | .frameShiftedFcHi _ | .frameShiftedResRoute _
  | .frameShiftedModeVol _ | .frameShiftedReset _ _ =>
    some .shifted

/-- The convention under which a frame word of the opcode table is read when none is given: `LINEAR` where the word is a
frame of `LINEAR`, else `SHIFTED`. The two tables number the same words (R78), so no reader can tell them apart (log entry 16). -/
def frameConvention (w : FrameWord) : Conv :=
  match decodeFrame .linear w with
  | .ok _ => .linear
  | .error _ => .shifted

/-- The word of an instruction of `nbits` bits, numbered as the opcode table numbers them: 16 bits are a frame, 32
a command word. -/
def slotOfTableWord (nbits w : Nat) : Slot :=
  if nbits ≤ 16 then .frame (BitVec.ofNat 16 w) else .command (BitVec.ofNat 32 w)

/-- The convention in which `slot` is read from a block of convention `conv`: the block's own where it reads the slot,
else, for a frame, the one `frameConvention` gives (log entry 16). -/
def conventionFor (conv : Conv) (slot : Slot) : Conv :=
  match slot, decodeSlot conv slot with
  | .frame w, .error _ => frameConvention w
  | .frame _, .ok _ => conv
  | .command _, _ => conv

/-- The instruction the decoder reads from a word of the opcode table. -/
def decodeTableWord (nbits w : Nat) : Option Instr :=
  let r := match slotOfTableWord nbits w with
    | .command c => decodeCommand c
    | .frame f => decodeFrame (frameConvention f) f
  r.toOption

end Sys2Proof
end

