-- ==== Sys2Proof/Machine/Load.lean ====
section
/-! DEFINITION. How the host puts a word of the opcode table before the machine (log entries 7, 16 and 22): a command word as
the next entry of the program (spec/10_state.md R26), a frame as the one that the command under way sends next. -/

namespace Sys2Proof.Machine

/-- The program with `w` as entry `n`, the others as they were; entries that a counter past the end would skip are the
word 0. -/
def placeCommand (p : List CommandWord) (n : Nat) (w : CommandWord) : List CommandWord :=
  p.take n ++ List.replicate (n - p.length) 0 ++ w :: p.drop (n + 1)

/-- The phase between two commands (R27). -/
def Phase.settled : Phase → Phase
  | .uninit => .uninit
  | .idle => .idle
  | .transmitting => .idle
  | .resetting => .idle

/-- `s` between two commands, with `w` as the next one. -/
def loadCommand (w : CommandWord) (s : State) : State :=
  ((s.setProgram (placeCommand s.program s.pc w)).setDue none).setPhase s.phase.settled

/-- The same block built with convention `conv`; a `LINEAR` block has a reset line (R7, R8). -/
def configFor (conv : Conv) (c : Config) : Config :=
  if c.conv = conv then c
  else { c with conv := conv, hasResetLine := c.hasResetLine || decide (conv = .linear) }

/-- The same block with the open bits of its reset frame those of `f` (R8, R77). -/
def configForReset (f : FrameWord) (c : Config) : Config :=
  { c with resetFrameIndex := (bits (frameAddress f) 1 7).toNat, resetFrameData := frameData f }

/-- `s` inside the command that sends the frame `f` next: a write command, or `RESET` for the reset frame, which only a
block whose open bits are the frame's sends (R77). -/
def loadFrame (conv : Conv) (f : FrameWord) (s : State) : State :=
  let t := ((s.setCfg (configFor conv s.cfg)).setDue (some f)).setCs .low
  match observe conv (frameAddress f) with
  | .resetSignal => (t.setCfg (configForReset f t.cfg)).setPhase .resetting
  | .register _ => t.setPhase .transmitting
  | .neverSent => t.setPhase .transmitting

/-- The word of the opcode table as the one that `step` runs next. -/
def load (slot : Slot) (s : State) : State :=
  match slot with
  | .command w => loadCommand w s
  | .frame f => loadFrame (conventionFor s.cfg.conv slot) f s

end Sys2Proof.Machine
end

