-- ==== Sys2Proof/Machine/Step.lean ====
section
/-! DEFINITION. One step of the machine (spec/10_state.md R26): run the program's command at `pc` to completion, then
`pc <- pc + 1`. -/

namespace Sys2Proof.Machine

/-- One step (R26). A configuration that breaks a constraint of R8 is refused; past the program's end the run is over. Between
commands, which is where every run is, the step is a whole command; inside one it is the frame that is due
(log entry 22). -/
def step (s : State) : Host.Outcome State Fault Refusal :=
  if s.cfg.wf then
    if insideCommand s then .refused .insideCommand
    else
      match fetch s with
      | none => .fault .programEnd
      | some slot =>
        match decodeSlot s.cfg.conv slot with
        | .ok i => advance slot (exec i s)
        | .error _ => advance slot (undecoded slot s)
  else .refused .badConfiguration

/-- `s` about to run that instruction: a command word is the program's next entry; a frame is the one due, inside a command
of a block that sends it (log entries 7, 16 and 22). -/
def State.withFetchWord (s : State) (nbits w : Nat) : State := load (slotOfTableWord nbits w) s

end Sys2Proof.Machine
end

