-- ==== Sys2Proof/Machine/Detached.lean ====
section
/-! DEFINITION. A detached state object (spec/40_value_types_and_state_update.md R107, decision D26): the sequence of
`SETV.*` and `SETF.*` commands that makes `S` equal to it. No command loads a whole `ChipState`. -/

namespace Sys2Proof.Machine

/-- The `VSEL` of a voice. -/
def vselOf : VoiceIx → BitVec 2
  | .v0 => 0
  | .v1 => 1
  | .v2 => 2

/-- The commands that make voice `v` equal to `x`, one per field (R82). -/
def setVoiceCommands (v : VoiceIx) (x : Voice) : List Instr :=
  [.setvFreq (vselOf v) x.freq, .setvPw (vselOf v) (zext 16 x.pw), .setvAttack (vselOf v) (zext 16 x.env.attack),
   .setvDecay (vselOf v) (zext 16 x.env.decay), .setvSustain (vselOf v) (zext 16 x.env.sustain),
   .setvRelease (vselOf v) (zext 16 x.env.release), .setvShape (vselOf v) (BitVec.ofNat 16 (shapeCode x.ctrl.shape)),
   .setvCflags (vselOf v) (zext 16 x.ctrl.flags)]

/-- The commands that make the filter equal to `f`, one per field (R83). -/
def setFilterCommands (f : Filter) : List Instr :=
  [.setfCutoff (zext 16 f.cutoff), .setfRes (zext 16 f.res), .setfVol (zext 16 f.vol), .setfMode (zext 16 f.mode),
   .setfTargets (zext 16 f.targets)]

/-- The commands that make `S` equal to the detached object `x` (R107). -/
def detachedCommands (x : ChipState) : List Instr :=
  setVoiceCommands .v0 x.v0 ++ setVoiceCommands .v1 x.v1 ++ setVoiceCommands .v2 x.v2 ++ setFilterCommands x.filter

end Sys2Proof.Machine
end

