-- ==== Sys2Proof/Machine/Environment.lean ====
section
/-! DEFINITION. The environment of a block as far as the launch premises speak of it (spec/70_reset_and_hazards.md R254), and
the premises P1 to P6 by name. It is no part of the block: the block checks none of them and no step reads any; every claim
about what the real chip holds takes them as hypotheses (log entry 15). -/

namespace Sys2Proof.Machine

/-- The device that is actually connected, by the parameters that P6 compares, and the serial formats it takes (P4). -/
structure Device where
  /-- The convention it answers to (U5, R263). -/
  conv : Conv
  /-- The chip-select framing it expects (D2). -/
  framing : Framing
  /-- Its settle time, in the unit of its convention (R266). -/
  settle : Nat
  /-- Bits 7:1 of the address byte of its reset frame (R77). -/
  resetIndex : Nat
  /-- The data byte of its reset frame (R77). -/
  resetData : Byte
  /-- The serial formats that suit it (R8, D22). -/
  formats : List SerialFormat
  deriving DecidableEq, Repr

/-- What surrounds a block in one run. All of it is hidden from the block (R43, R254). -/
structure Environment where
  /-- The calls another component makes on the block's capabilities during the block's life (R16, R264). -/
  foreignCalls : List Event
  /-- The level of the chip-select line when the first command starts. -/
  selectLevel : Level
  /-- The level of the reset line when the first command starts. -/
  resetLevel : Level
  /-- The serial format the transport was initialised with, if it was initialised. -/
  transport : Option SerialFormat
  /-- Whether the call that is event number `n` of the trace returns (R232). -/
  returns : Nat → Bool
  /-- For how many of the units asked for the delay that is event number `n` of the trace blocks (R232). -/
  blocked : Nat → Nat
  /-- The device that is connected. -/
  device : Device

/-- P1: the capabilities are the block's alone for its whole life (R16, R264). -/
def Environment.exclusive (env : Environment) : Bool := env.foreignCalls.isEmpty

/-- P2: the chip-select line is high when the first command starts. -/
def Environment.selectHigh (env : Environment) : Bool := decide (env.selectLevel = .high)

/-- P3: under `LINEAR`, the reset line is high when the first command starts. -/
def Environment.resetHigh (env : Environment) (c : Config) : Bool :=
  match c.conv with
  | .linear => decide (env.resetLevel = .high)
  | .shifted => true

/-- P4: the transport is initialised and its byte-level parameters suit the device. -/
def Environment.transportSuits (env : Environment) : Bool :=
  match env.transport with
  | some f => decide (f ∈ env.device.formats)
  | none => false

/-- A delay blocks at least as long as asked (R232); the other calls ask for no time. -/
def Environment.longEnough (env : Environment) (n : Nat) : Event → Bool
  | .delay k _ => decide (k ≤ env.blocked n)
  | .cs _ => true
  | .rst _ => true
  | .tx _ => true

/-- P5 of the calls `es`, the first of which is event number `n` of the trace: each returns, and a delay blocks at least as
long as asked. -/
def Environment.callsReturn (env : Environment) : Nat → List Event → Bool
  | _, [] => true
  | n, e :: es => env.returns n && env.longEnough n e && env.callsReturn (n + 1) es

/-- P6: `CONV`, `FRAMING`, `T_SETTLE` and the reset-frame parameters match the connected device. -/
def Environment.deviceMatches (env : Environment) (c : Config) : Bool :=
  decide (c.conv = env.device.conv) && decide (c.framing = env.device.framing) && decide (c.tSettle = env.device.settle) &&
    decide (c.resetFrameIndex = env.device.resetIndex) && decide (c.resetFrameData = env.device.resetData)

/-- The launch premises P1 to P6 (R254), of the run whose trace is that of `s`. -/
def launchPremises (env : Environment) (s : State) : Bool :=
  env.exclusive && env.selectHigh && env.resetHigh s.cfg && env.transportSuits && env.callsReturn 0 s.trace &&
    env.deviceMatches s.cfg

end Sys2Proof.Machine
end

