-- ==== Sys2Proof/Safety.lean ====
section
/-! DEFINITION. What the claims about the machine speak of: the event lists the procedures of
spec/43_transport_driver.md append (R183 to R197), the bus discipline every trace keeps (R199), and the invariant of a
run. -/

namespace Sys2Proof.Machine

/-! ### Event lists -/

/-- The events of `Settle()` (R185). -/
def settleEvents (c : Config) : List Event :=
  if 0 < c.tSettle then [.delay c.tSettle (unitOf c.conv)] else []

/-- The events of `WriteReg(idx, d)` (R183). -/
def writeRegEvents (c : Config) (idx : Nat) (d : Byte) : List Event :=
  [.cs .low, .tx [wireAddr c.conv idx, d], .cs .high] ++ settleEvents c

/-- The frames of a payload whose first byte has logical index `idx` (R184). -/
def frameEvents (c : Config) : Nat → List Byte → List Event
  | _, [] => []
  | idx, d :: p => .tx [wireAddr c.conv idx, d] :: frameEvents c (idx + 1) p

/-- The `PER_REGISTER` events of a payload whose first byte has logical index `idx` (R184). -/
def registerEvents (c : Config) : Nat → List Byte → List Event
  | _, [] => []
  | idx, d :: p => writeRegEvents c idx d ++ registerEvents c (idx + 1) p

/-- The events of `WriteGroup(g, p)` (R184). -/
def groupEvents (c : Config) (g : Group) (p : List Byte) : List Event :=
  match c.framing with
  | .perRegister => registerEvents c (base g) p
  | .perGroup => [.cs .low] ++ frameEvents c (base g) p ++ [.cs .high] ++ settleEvents c

/-- The events of `WRITE_ALL_VOICES` (R190). -/
def voicesEvents (c : Config) (S : ChipState) : List Event :=
  groupEvents c (.voice .v0) (encVoice S.v0) ++ groupEvents c (.voice .v1) (encVoice S.v1) ++
    groupEvents c (.voice .v2) (encVoice S.v2)

/-- The events of `INITIALIZE` (R192). -/
def initializeEvents (c : Config) (S : ChipState) : List Event :=
  voicesEvents c S ++ groupEvents c .filter (encFilter S.filter)

/-- The events of `ResetLine()` (R196). -/
def resetLineEvents (c : Config) : List Event := [.rst .low, .delay c.tResetLine .ms, .rst .high]

/-- The events of `ResetFrame()` (R197) with the frame's open bits given. -/
def resetFrameEvents (c : Config) (index : Nat) (d : Byte) : List Event :=
  [.cs .low, .tx [resetAddr index, d], .delay c.tResetShifted .us, .cs .high]

/-- The bytes handed to the transport, concatenated (R184). -/
def sentBytes : List Event → List Byte
  | [] => []
  | .tx p :: es => p ++ sentBytes es
  | _ :: es => sentBytes es

/-- `CHIP` of a whole payload: what a known register reads after the group write (R52, R57). -/
def imageByte (S : ChipState) (k : Nat) : Option Byte :=
  match ownerOf k with
  | some (g, i) => (payloadOf S g)[i]?
  | none => none

/-! ### The bus discipline (R199) -/

/-- Where a trace stands between two events. -/
inductive BusState where
  | released    -- no chip-select frame and no reset pulse is open
  | selected    -- after `CS(LOW)`, no byte sent yet
  | sent        -- after a register frame, chip-select still low
  | settling    -- after the `CS(HIGH)` of a write, the settle delay due
  | resetSent   -- after the reset frame, its hold delay due
  | resetHeld   -- after the hold delay, chip-select still low
  | lineLow     -- after `RST(LOW)`, its hold delay due
  | lineHeld    -- after the hold delay, the line still low
  deriving DecidableEq, Repr

/-- After the `CS(HIGH)` of a write: `Settle()` is due when `T_SETTLE > 0` (R185). -/
def afterWrite (c : Config) : BusState := if 0 < c.tSettle then .settling else .released

/-- A `TX` right after `CS(LOW)`: a register frame, or the reset frame (R183, R197). -/
def firstFrame (c : Config) (a : Byte) : Option BusState :=
  match observe c.conv a with
  | .register _ => some .sent
  | .resetSignal => some .resetSent
  | .neverSent => none

/-- A further `TX` in the same chip-select frame: a register frame, under `PER_GROUP` only (R184). -/
def furtherFrame (c : Config) (a : Byte) : Option BusState :=
  match c.framing, observe c.conv a with
  | .perGroup, .register _ => some .sent
  | _, _ => none

/-- One event of the discipline; `none` is an event the block never emits there. -/
def busNext (c : Config) (q : BusState) (e : Event) : Option BusState :=
  match q with
  | .released =>
    match e with
    | .cs .low => some .selected
    | .rst .low => if c.conv = .linear then some .lineLow else none
    | _ => none
  | .selected =>
    match e with
    | .tx [a, _] => firstFrame c a
    | _ => none
  | .sent =>
    match e with
    | .tx [a, _] => furtherFrame c a
    | .cs .high => some (afterWrite c)
    | _ => none
  | .settling =>
    match e with
    | .delay n u => if n = c.tSettle ∧ u = unitOf c.conv then some .released else none
    | _ => none
  | .resetSent =>
    match e with
    | .delay n u => if n = c.tResetShifted ∧ u = .us then some .resetHeld else none
    | _ => none
  | .resetHeld =>
    match e with
    | .cs .high => some .released
    | _ => none
  | .lineLow =>
    match e with
    | .delay n u => if n = c.tResetLine ∧ u = .ms then some .lineHeld else none
    | _ => none
  | .lineHeld =>
    match e with
    | .rst .high => some .released
    | _ => none

/-- A list of events followed from `q`. -/
def busRun (c : Config) : BusState → List Event → Option BusState
  | q, [] => some q
  | q, e :: es => (busNext c q e).bind fun q' => busRun c q' es

/-- A trace between two commands: every event in its place and nothing left open (R199). -/
def BusSafe (c : Config) (es : List Event) : Prop := busRun c .released es = some .released

/-! ### What a trace determines -/

/-- The chip image after the events `es` (R57). -/
def imageAfter (conv : Conv) (m : List Host.Cell) (es : List Event) : List Host.Cell :=
  es.foldl (fun m e => Memory.after conv e m) m

/-- The chip-select record after one event (R28). -/
def csNext (p : PinState) : Event → PinState
  | .cs l => .driven l
  | _ => p

/-- The reset line record after one event (R28). -/
def rstNext (p : PinState) : Event → PinState
  | .rst l => .driven l
  | _ => p

/-- The chip-select record after the events `es`. -/
def csAfter (p : PinState) (es : List Event) : PinState := es.foldl csNext p

/-- The reset line record after the events `es`. -/
def rstAfter (p : PinState) (es : List Event) : PinState := es.foldl rstNext p

/-- The result of a command that made the calls `es` (R227). -/
def callResult (s : State) (es : List Event) : Result :=
  if s.cfg.surfaceErrors && anyCallFailed s.trace.length es then .err .transportError else .ok

/-- The whole state after a command that made the calls `es`: the phase is `IDLE` (R181), the trace, the chip image and
the pin records have followed the calls, one result was delivered, and nothing else changed. -/
def State.afterCalls (s : State) (es : List Event) : State :=
  { s with
    phase := .idle
    due := none
    trace := s.trace ++ es
    chip := imageAfter s.cfg.conv s.chip es
    cs := csAfter s.cs es
    rst := rstAfter s.rst es
    results := s.results ++ [callResult s es] }

/-- The whole state after the frame that was due was sent, inside a command: nothing but the trace and the chip image
changed, and the frame is no longer due (R183, R57). -/
def State.afterFrame (s : State) (a d : Byte) : State :=
  { s with due := none, trace := s.trace ++ [.tx [a, d]], chip := Memory.after s.cfg.conv (.tx [a, d]) s.chip }

/-- The register rows of a convention with data byte `d`, each with its logical index (R78). -/
def frameRows (conv : Conv) (d : Byte) : List (Instr × Nat) :=
  match conv with
  | .linear =>
    [(.frameLinearV0FreqLo d, 0), (.frameLinearV0FreqHi d, 1), (.frameLinearV0PwLo d, 2),
     (.frameLinearV0PwHi d, 3), (.frameLinearV0Control d, 4), (.frameLinearV0AttackDecay d, 5),
     (.frameLinearV0SustainRelease d, 6), (.frameLinearV1FreqLo d, 7), (.frameLinearV1FreqHi d, 8),
     (.frameLinearV1PwLo d, 9), (.frameLinearV1PwHi d, 10), (.frameLinearV1Control d, 11),
     (.frameLinearV1AttackDecay d, 12), (.frameLinearV1SustainRelease d, 13), (.frameLinearV2FreqLo d, 14),
     (.frameLinearV2FreqHi d, 15), (.frameLinearV2PwLo d, 16), (.frameLinearV2PwHi d, 17),
     (.frameLinearV2Control d, 18), (.frameLinearV2AttackDecay d, 19), (.frameLinearV2SustainRelease d, 20),
     (.frameLinearFcLo d, 21), (.frameLinearFcHi d, 22), (.frameLinearResRoute d, 23),
     (.frameLinearModeVol d, 24)]
  | .shifted =>
    [(.frameShiftedV0FreqLo d, 0), (.frameShiftedV0FreqHi d, 1), (.frameShiftedV0PwLo d, 2),
     (.frameShiftedV0PwHi d, 3), (.frameShiftedV0Control d, 4), (.frameShiftedV0AttackDecay d, 5),
     (.frameShiftedV0SustainRelease d, 6), (.frameShiftedV1FreqLo d, 7), (.frameShiftedV1FreqHi d, 8),
     (.frameShiftedV1PwLo d, 9), (.frameShiftedV1PwHi d, 10), (.frameShiftedV1Control d, 11),
     (.frameShiftedV1AttackDecay d, 12), (.frameShiftedV1SustainRelease d, 13), (.frameShiftedV2FreqLo d, 14),
     (.frameShiftedV2FreqHi d, 15), (.frameShiftedV2PwLo d, 16), (.frameShiftedV2PwHi d, 17),
     (.frameShiftedV2Control d, 18), (.frameShiftedV2AttackDecay d, 19), (.frameShiftedV2SustainRelease d, 20),
     (.frameShiftedFcLo d, 21), (.frameShiftedFcHi d, 22), (.frameShiftedResRoute d, 23),
     (.frameShiftedModeVol d, 24)]

/-- Whether a block of configuration `c` sends this frame at all: a register frame with a data byte R90 (a) and (b) allow, the
block's own reset frame (R77). -/
def ownFrame (i : Instr) (c : Config) : Bool :=
  match i with
  | .frameShiftedReset index d => ownResetFrame index d c
  | i => i.wellFormed

/-- The phase in which a frame is sent (R27, R197). -/
def framePhase (i : Instr) : Phase :=
  match i with
  | .frameShiftedReset _ _ => .resetting
  | _ => .transmitting

/-- The whole state after a command that only returned `r`: nothing else changed (R221, R229). -/
def State.onlyResult (s : State) (r : Result) : State := { s with results := s.results ++ [r] }

/-- The whole state after a state update that returned `Ok`: only `S` changed (R106). -/
def State.afterSet (s : State) (S : ChipState) : State :=
  { s with chipState := S, results := s.results ++ [.ok] }

/-- The field of `S` that a `SETV.*` or `SETF.*` command writes (R21 to R25, R82, R83), with the voice's `VSEL`. -/
inductive SetField where
  | freq (v : BitVec 2)
  | pw (v : BitVec 2)
  | attack (v : BitVec 2)
  | decay (v : BitVec 2)
  | sustain (v : BitVec 2)
  | release (v : BitVec 2)
  | shape (v : BitVec 2)
  | cflags (v : BitVec 2)
  | cutoff
  | res
  | vol
  | mode
  | targets
  deriving DecidableEq, Repr

/-- The field a command writes; a write command, `RESET` and a frame write none (R106, R186, R198). -/
def setField? : Instr → Option SetField
  | .setvFreq v _ => some (.freq v)
  | .setvPw v _ => some (.pw v)
  | .setvAttack v _ => some (.attack v)
  | .setvDecay v _ => some (.decay v)
  | .setvSustain v _ => some (.sustain v)
  | .setvRelease v _ => some (.release v)
  | .setvShape v _ => some (.shape v)
  | .setvCflags v _ => some (.cflags v)
  | .setvCflagsAdd v _ => some (.cflags v)
  | .setvCflagsRemove v _ => some (.cflags v)
  | .setfCutoff _ => some .cutoff
  | .setfRes _ => some .res
  | .setfVol _ => some .vol
  | .setfMode _ => some .mode
  | .setfModeAdd _ => some .mode
  | .setfModeRemove _ => some .mode
  | .setfTargets _ => some .targets
  | .setfTargetsAdd _ => some .targets
  | .setfTargetsRemove _ => some .targets
  | _ => none

/-- The state after the instructions `is`, one after another, if each answers a next state. -/
def runAll : List Instr → State → Option State
  | [], s => some s
  | i :: is, s =>
    match exec i s with
    | .next t => runAll is t
    | .fault _ => none
    | .refused _ => none

/-- No capability call of the trace failed, a delay being no call that can (R225): a premise of every claim about what the
real chip holds (R226), beside the launch premises (R254). -/
def State.NoCallFailed (s : State) : Prop :=
  ∀ n e, s.trace[n]? = some e → fallible e = true → Config.callFails n = false

/-- What the model says the real chip's register `k` holds in a run in the environment `env`: the entry of `CHIP` on the
launch premises and the premise that no call failed, outside an open frame. It is nothing, `none`, elsewhere: the spec "says
nothing of a run in which one fails" (R254), "`CHIP` is then not a statement about the chip" (R226), and between a `TX` and its
`CS(HIGH)` the image must not be taken for one (R57; log entries 9 and 15). -/
def State.chipContent (s : State) (env : Environment) (k : Nat) : Option Byte :=
  if launchPremises env s && !anyCallFailed 0 s.trace && !frameOpen s.trace then Memory.read k s.chip else none

/-! ### The invariant of a run -/

/-- What holds between any two commands of a run from reset. -/
structure Inv (s : State) : Prop where
  /-- The configuration meets the constraints of R8. -/
  cfgWf : s.cfg.wf = true
  /-- The trace keeps the discipline of R199. -/
  bus : BusSafe s.cfg s.trace
  /-- `UNINIT` is "no chip contact yet", else the phase is `IDLE` (R27, R181). -/
  phase : s.phase = if s.trace = [] then .uninit else .idle
  /-- No frame is due between commands (R26). -/
  due : s.due = none
  /-- `cs` is the last level commanded (R28). -/
  cs : s.cs = csAfter .undriven s.trace
  /-- `rst` is the last level commanded (R28). -/
  rst : s.rst = rstAfter .undriven s.trace
  /-- `CHIP` is computed from the trace (R29, R57). -/
  chip : s.chip = imageAfter s.cfg.conv [] s.trace
  /-- The chip image is in its canonical form and lists registers only (R50). -/
  chipWf : Memory.wf s.chip = true
  /-- Every command returned one result (R26, R182). -/
  results : s.results.length = s.pc

end Sys2Proof.Machine
end

