-- ==== Sys2Proof/Certificates/Slice0/Obligations.lean ====
section
/-! DEFINITION. The statements for the provers. Each is about every state and every operand, unless its hypotheses say
otherwise; the word or the frame of an instruction is `encode` of it, and a claim about what a register of the chip holds
is a claim about the chip image `CHIP`, the ghost that R57 computes from the trace (R29); what the real chip holds is spoken of
on the premises `launchPremises` and `State.NoCallFailed` only (R254, R226). -/

open Sys2Proof
open Sys2Proof.Machine

/-- Words written out from the encoding tables decode to their instructions: RESET, WRITE_VOICE 1, SETV.FREQ 0, SETV.PW 1 with an out-of-range immediate, SETF.CUTOFF, one frame of each convention and a reset frame; the word 0 is rejected. -/
def Obligations.SampleWordsDecode : Prop :=
  decodeCommand 0x10000000 = .ok .reset ∧
  decodeCommand 0x24000000 = .ok (.writeVoice 1) ∧
  decodeCommand 0x60001D45 = .ok (.setvFreq 0 0x1D45) ∧
  decodeCommand 0x64201000 = .ok (.setvPw 1 0x1000) ∧
  decodeCommand 0x700004A5 = .ok (.setfCutoff 0x4A5) ∧
  decodeFrame .linear 0x0731 = .ok (.frameLinearV1FreqLo 0x31) ∧
  decodeFrame .shifted 0x0E31 = .ok (.frameShiftedV1FreqLo 0x31) ∧
  decodeFrame .shifted 0x31FF = .ok (.frameShiftedReset 24 0xFF) ∧
  decodeCommand 0 = .error .illegalOp

/-- For every instruction, with every operand the encoding admits, and every convention in which the instruction can be read (both for a command, its own for a frame): the decoder reads the encoded word as that instruction. -/
def Obligations.DecodeOfEncode : Prop :=
  ∀ (conv : Conv) (i : Instr), (i.conv? = none ∨ i.conv? = some conv) → decodeSlot conv (encode i) = .ok i

/-- For every convention and every word the decoder accepts: the decoded instruction encodes to exactly that word, and it is a command or a frame of that convention. -/
def Obligations.EncodeOfDecode : Prop :=
  ∀ (conv : Conv) (slot : Slot) (i : Instr), decodeSlot conv slot = .ok i →
    encode i = slot ∧ (i.conv? = none ∨ i.conv? = some conv)

/-- A 32-bit word is a command if and only if it agrees with the match value of some row on that row's mask: RESET, WRITE_FILTER, WRITE_ALL_VOICES, INITIALIZE, WRITE_VOICE, the ten SETV rows and the nine SETF rows. -/
def Obligations.CommandWordsAreTheTables : Prop :=
  ∀ w : CommandWord, (∃ i, decodeCommand w = .ok i) ↔
    (w = 0x10000000 ∨ w = 0x30000000 ∨ w = 0x40000000 ∨ w = 0x50000000 ∨ w &&& 0xF3FFFFFF = 0x20000000 ∨
      (∃ k, k < 10 ∧ w &&& 0xF3FF0000 = BitVec.ofNat 32 (0x60000000 + k * 0x00200000)) ∨
      ∃ k, k < 9 ∧ w &&& 0xFFFF0000 = BitVec.ofNat 32 (0x70000000 + k * 0x00200000))

/-- For every 32-bit word: the decoder rejects it if and only if OP is 0 or at least 8, or ZERO is not 0, or OP is 1, 3, 4 or 5 and VSEL, FSEL or IMM is not 0, or OP is 2 and FSEL or IMM is not 0, or OP is 6 and FSEL is at least 10, or OP is 7 and FSEL is at least 9 or VSEL is not 0. -/
def Obligations.IllegalWordsAreStepsOneToFour : Prop :=
  ∀ w : CommandWord, (∃ r, decodeCommand w = .error r) ↔
    ((opField w = 0 ∨ 8 ≤ (opField w).toNat ∨ zeroField w ≠ 0) ∨
      ((opField w = 1 ∨ opField w = 3 ∨ opField w = 4 ∨ opField w = 5) ∧
        (vselField w ≠ 0 ∨ fselField w ≠ 0 ∨ immField w ≠ 0)) ∨
      (opField w = 2 ∧ (fselField w ≠ 0 ∨ immField w ≠ 0)) ∨
      (opField w = 6 ∧ 10 ≤ (fselField w).toNat) ∨
      (opField w = 7 ∧ (9 ≤ (fselField w).toNat ∨ vselField w ≠ 0)))

/-- In a state with a well-formed configuration, no frame due and phase UNINIT or IDLE, whose program entry at pc decodes to an instruction i: step is exec of i at that state, with pc increased by one in the next state; a fault or a refusal of exec is the step's. In a state with a well-formed configuration and a frame due that decodes to i in the block's convention: step is exec of i, and pc stays. That a step may also start inside a command is the model's choice (log entry 22); no run has such a state. -/
def Obligations.StepRunsDecodedInstruction : Prop :=
  (∀ (s : State) (w : CommandWord) (i : Instr), s.cfg.wf = true → s.due = none → s.phase.transient = false →
    s.program[s.pc]? = some w → decodeCommand w = .ok i →
    step s = match exec i s with
      | .next t => .next (t.setPc (t.pc + 1))
      | .fault r => .fault r
      | .refused r => .refused r) ∧
  ∀ (s : State) (f : FrameWord) (i : Instr), s.cfg.wf = true → s.due = some f →
    decodeFrame s.cfg.conv f = .ok i → step s = exec i s

/-- In a state between commands (well-formed configuration, no frame due, phase UNINIT or IDLE) whose program entry at pc is a command word the decoder rejects: step answers the next state in which the result IllegalCommand of that word was delivered and pc is one more, and every other piece of state is as it was. -/
def Obligations.StepRaisesIllegalCommand : Prop :=
  ∀ (s : State) (w : CommandWord) (r : Reject), s.cfg.wf = true → s.due = none → s.phase.transient = false →
    s.program[s.pc]? = some w → decodeCommand w = .error r →
    step s = .next { s with results := s.results ++ [.err (.illegalCommand w)], pc := s.pc + 1 }

/-- In a state between commands (well-formed configuration, no frame due, phase UNINIT or IDLE) whose program entry at pc is any command word: step answers a next state in which exactly one more result was delivered and pc is one more. -/
def Obligations.CommandStepsAlwaysComplete : Prop :=
  ∀ (s : State) (w : CommandWord), s.cfg.wf = true → s.due = none → s.phase.transient = false →
    s.program[s.pc]? = some w →
    ∃ t r, step s = .next t ∧ t.pc = s.pc + 1 ∧ t.results = s.results ++ [r]

/-- step faults exactly when the configuration is well formed, no frame is due, the phase is UNINIT or IDLE, and pc is at or past the program's end, the fault being programEnd. With no frame due it refuses exactly when the configuration breaks a constraint (badConfiguration) or the configuration is well formed and the phase is TRANSMITTING or RESETTING (insideCommand). With a frame due whose address byte the block never sends, and a well-formed configuration, it refuses with frameNeverSent. In a state where the run invariant holds it never refuses. That these are a fault and refusals is the model's choice (log entries 3, 6, 11, 22). -/
def Obligations.StepStopsOnlyHere : Prop :=
  ∀ s : State,
    (∀ f, step s = .fault f ↔ (s.cfg.wf = true ∧ s.due = none ∧ s.phase.transient = false ∧
      s.program.length ≤ s.pc ∧ f = .programEnd)) ∧
    (s.due = none → ∀ r, step s = .refused r ↔
      ((s.cfg.wf = false ∧ r = .badConfiguration) ∨
        (s.cfg.wf = true ∧ s.phase.transient = true ∧ r = .insideCommand))) ∧
    (∀ w, s.cfg.wf = true → s.due = some w → observe s.cfg.conv (frameAddress w) = .neverSent →
      step s = .refused .frameNeverSent) ∧
    (Inv s → ∀ r, step s ≠ .refused r)

/-- For every state and immediate: FSEL 0 of OP 6 decodes to SETV.FREQ; voice index 3 returns RangeError(VOICE_INDEX, 3) and changes nothing else; for voices 0 to 2 the voice's frequency becomes the immediate, the result is Ok and nothing else changes; and the two frequency bytes of a voice payload are the 16 bits unchanged, low byte first. -/
def Obligations.SetvFreqStoresFrequency : Prop :=
  ∀ (s : State) (imm : U16),
    ((∀ v, decodeCommand (commandWord 6 v 0 imm) = .ok (.setvFreq v imm)) ∧
      exec (.setvFreq 3 imm) s = .next (s.onlyResult (.err (.rangeError .voiceIndex 3))) ∧
      ∀ ix, exec (.setvFreq (vselOf ix) imm) s =
        .next (s.afterSet (s.chipState.setVoice ix { s.chipState.voice ix with freq := imm }))) ∧
    ∀ x : Voice, (encVoice x).take 2 = [bits x.freq 0 8, bits x.freq 8 8]

/-- For every state and immediate: FSEL 1 of OP 6 decodes to SETV.PW; voice index 3 returns RangeError(VOICE_INDEX, 3); an immediate up to 4095 becomes the voice's pulse width with result Ok; a larger one returns RangeError(PW, immediate); nothing else changes. -/
def Obligations.SetvPwStoresPulseWidth : Prop :=
  ∀ (s : State) (imm : U16),
    ((∀ v, decodeCommand (commandWord 6 v 1 imm) = .ok (.setvPw v imm)) ∧
      exec (.setvPw 3 imm) s = .next (s.onlyResult (.err (.rangeError .voiceIndex 3))) ∧
      ∀ ix, (imm.toNat ≤ 4095 → exec (.setvPw (vselOf ix) imm) s =
          .next (s.afterSet (s.chipState.setVoice ix { s.chipState.voice ix with pw := bits imm 0 12 }))) ∧
        (4095 < imm.toNat → exec (.setvPw (vselOf ix) imm) s =
          .next (s.onlyResult (.err (.rangeError .pw imm.toNat)))))

/-- For every state and immediate, and each of the four commands: its FSEL decodes to it; voice index 3 returns RangeError(VOICE_INDEX, 3); an immediate up to 15 becomes that one magnitude of that one voice with result Ok; a larger one returns RangeError of its field; nothing else changes. -/
def Obligations.SetvEnvelopeFields : Prop :=
  ∀ (s : State) (imm : U16),
    ((∀ v, decodeCommand (commandWord 6 v 2 imm) = .ok (.setvAttack v imm)) ∧
      exec (.setvAttack 3 imm) s = .next (s.onlyResult (.err (.rangeError .voiceIndex 3))) ∧
      ∀ ix, (imm.toNat ≤ 15 → exec (.setvAttack (vselOf ix) imm) s =
          .next (s.afterSet (s.chipState.setVoice ix { s.chipState.voice ix with env := { (s.chipState.voice ix).env with attack := bits imm 0 4 } }))) ∧
        (15 < imm.toNat → exec (.setvAttack (vselOf ix) imm) s =
          .next (s.onlyResult (.err (.rangeError .attack imm.toNat))))) ∧
    ((∀ v, decodeCommand (commandWord 6 v 3 imm) = .ok (.setvDecay v imm)) ∧
      exec (.setvDecay 3 imm) s = .next (s.onlyResult (.err (.rangeError .voiceIndex 3))) ∧
      ∀ ix, (imm.toNat ≤ 15 → exec (.setvDecay (vselOf ix) imm) s =
          .next (s.afterSet (s.chipState.setVoice ix { s.chipState.voice ix with env := { (s.chipState.voice ix).env with decay := bits imm 0 4 } }))) ∧
        (15 < imm.toNat → exec (.setvDecay (vselOf ix) imm) s =
          .next (s.onlyResult (.err (.rangeError .decay imm.toNat))))) ∧
    ((∀ v, decodeCommand (commandWord 6 v 4 imm) = .ok (.setvSustain v imm)) ∧
      exec (.setvSustain 3 imm) s = .next (s.onlyResult (.err (.rangeError .voiceIndex 3))) ∧
      ∀ ix, (imm.toNat ≤ 15 → exec (.setvSustain (vselOf ix) imm) s =
          .next (s.afterSet (s.chipState.setVoice ix { s.chipState.voice ix with env := { (s.chipState.voice ix).env with sustain := bits imm 0 4 } }))) ∧
        (15 < imm.toNat → exec (.setvSustain (vselOf ix) imm) s =
          .next (s.onlyResult (.err (.rangeError .sustain imm.toNat))))) ∧
    ((∀ v, decodeCommand (commandWord 6 v 5 imm) = .ok (.setvRelease v imm)) ∧
      exec (.setvRelease 3 imm) s = .next (s.onlyResult (.err (.rangeError .voiceIndex 3))) ∧
      ∀ ix, (imm.toNat ≤ 15 → exec (.setvRelease (vselOf ix) imm) s =
          .next (s.afterSet (s.chipState.setVoice ix { s.chipState.voice ix with env := { (s.chipState.voice ix).env with release := bits imm 0 4 } }))) ∧
        (15 < imm.toNat → exec (.setvRelease (vselOf ix) imm) s =
          .next (s.onlyResult (.err (.rangeError .release imm.toNat)))))

/-- For every state: FSEL 6 of OP 6 decodes to SETV.SHAPE; voice index 3 returns RangeError(VOICE_INDEX, 3); the immediate that is the code of a shape selects that shape with result Ok; an immediate above 3 returns RangeError(SHAPE, immediate); nothing else changes. -/
def Obligations.SetvShapeSelectsShape : Prop :=
  ∀ s : State,
    (∀ v imm, decodeCommand (commandWord 6 v 6 imm) = .ok (.setvShape v imm)) ∧
    (∀ imm, exec (.setvShape 3 imm) s = .next (s.onlyResult (.err (.rangeError .voiceIndex 3)))) ∧
    (∀ ix shape, exec (.setvShape (vselOf ix) (BitVec.ofNat 16 (shapeCode shape))) s =
      .next (s.afterSet (s.chipState.setVoice ix
        { s.chipState.voice ix with ctrl := { (s.chipState.voice ix).ctrl with shape := shape } }))) ∧
    (∀ c, c ≤ 3 → ∃ shape, shapeCode shape = c) ∧
    (∀ ix (imm : U16), 3 < imm.toNat → exec (.setvShape (vselOf ix) imm) s =
      .next (s.onlyResult (.err (.rangeError .shape imm.toNat))))

/-- For every state and immediate, and each of the three commands: its FSEL decodes to it; voice index 3 returns RangeError(VOICE_INDEX, 3); an immediate up to 15 is assigned to, united with or taken out of the flag set of that one voice with result Ok, the shape untouched; a larger one returns RangeError(CFLAGS, immediate); nothing else changes. -/
def Obligations.SetvControlFlagSets : Prop :=
  ∀ (s : State) (imm : U16),
    ((∀ v, decodeCommand (commandWord 6 v 7 imm) = .ok (.setvCflags v imm)) ∧
      exec (.setvCflags 3 imm) s = .next (s.onlyResult (.err (.rangeError .voiceIndex 3))) ∧
      ∀ ix, (imm.toNat ≤ 15 → exec (.setvCflags (vselOf ix) imm) s =
          .next (s.afterSet (s.chipState.setVoice ix { s.chipState.voice ix with ctrl := { (s.chipState.voice ix).ctrl with flags := bits imm 0 4 } }))) ∧
        (15 < imm.toNat → exec (.setvCflags (vselOf ix) imm) s =
          .next (s.onlyResult (.err (.rangeError .cflags imm.toNat))))) ∧
    ((∀ v, decodeCommand (commandWord 6 v 8 imm) = .ok (.setvCflagsAdd v imm)) ∧
      exec (.setvCflagsAdd 3 imm) s = .next (s.onlyResult (.err (.rangeError .voiceIndex 3))) ∧
      ∀ ix, (imm.toNat ≤ 15 → exec (.setvCflagsAdd (vselOf ix) imm) s =
          .next (s.afterSet (s.chipState.setVoice ix { s.chipState.voice ix with ctrl := { (s.chipState.voice ix).ctrl with flags := (s.chipState.voice ix).ctrl.flags ||| bits imm 0 4 } }))) ∧
        (15 < imm.toNat → exec (.setvCflagsAdd (vselOf ix) imm) s =
          .next (s.onlyResult (.err (.rangeError .cflags imm.toNat))))) ∧
    ((∀ v, decodeCommand (commandWord 6 v 9 imm) = .ok (.setvCflagsRemove v imm)) ∧
      exec (.setvCflagsRemove 3 imm) s = .next (s.onlyResult (.err (.rangeError .voiceIndex 3))) ∧
      ∀ ix, (imm.toNat ≤ 15 → exec (.setvCflagsRemove (vselOf ix) imm) s =
          .next (s.afterSet (s.chipState.setVoice ix { s.chipState.voice ix with ctrl := { (s.chipState.voice ix).ctrl with flags := (s.chipState.voice ix).ctrl.flags &&& ~~~(bits imm 0 4) } }))) ∧
        (15 < imm.toNat → exec (.setvCflagsRemove (vselOf ix) imm) s =
          .next (s.onlyResult (.err (.rangeError .cflags imm.toNat)))))

/-- For every state and immediate: FSEL 0 of OP 7 decodes to SETF.CUTOFF; an immediate up to 2047 becomes the cutoff with result Ok; a larger one returns RangeError(CUTOFF, immediate); nothing else changes. -/
def Obligations.SetfCutoffStoresCutoff : Prop :=
  ∀ (s : State) (imm : U16),
    (decodeCommand (commandWord 7 0 0 imm) = .ok (.setfCutoff imm) ∧
      (imm.toNat ≤ 2047 → exec (.setfCutoff imm) s =
        .next (s.afterSet { s.chipState with filter := { s.chipState.filter with cutoff := bits imm 0 11 } })) ∧
      (2047 < imm.toNat → exec (.setfCutoff imm) s =
        .next (s.onlyResult (.err (.rangeError .cutoff imm.toNat)))))

/-- For every state and immediate, and each of the two commands: its FSEL decodes to it; an immediate up to 15 becomes that one field of the filter with result Ok; a larger one returns RangeError of its field; nothing else changes. -/
def Obligations.SetfResonanceAndVolume : Prop :=
  ∀ (s : State) (imm : U16),
    (decodeCommand (commandWord 7 0 1 imm) = .ok (.setfRes imm) ∧
      (imm.toNat ≤ 15 → exec (.setfRes imm) s =
        .next (s.afterSet { s.chipState with filter := { s.chipState.filter with res := bits imm 0 4 } })) ∧
      (15 < imm.toNat → exec (.setfRes imm) s =
        .next (s.onlyResult (.err (.rangeError .res imm.toNat))))) ∧
    (decodeCommand (commandWord 7 0 2 imm) = .ok (.setfVol imm) ∧
      (imm.toNat ≤ 15 → exec (.setfVol imm) s =
        .next (s.afterSet { s.chipState with filter := { s.chipState.filter with vol := bits imm 0 4 } })) ∧
      (15 < imm.toNat → exec (.setfVol imm) s =
        .next (s.onlyResult (.err (.rangeError .vol imm.toNat)))))

/-- For every state and immediate, and each of the three commands: its FSEL decodes to it; an immediate up to 15 is assigned to, united with or taken out of the mode set with result Ok; a larger one returns RangeError(MODE, immediate); nothing else changes. -/
def Obligations.SetfModeSets : Prop :=
  ∀ (s : State) (imm : U16),
    (decodeCommand (commandWord 7 0 3 imm) = .ok (.setfMode imm) ∧
      (imm.toNat ≤ 15 → exec (.setfMode imm) s =
        .next (s.afterSet { s.chipState with filter := { s.chipState.filter with mode := bits imm 0 4 } })) ∧
      (15 < imm.toNat → exec (.setfMode imm) s =
        .next (s.onlyResult (.err (.rangeError .mode imm.toNat))))) ∧
    (decodeCommand (commandWord 7 0 4 imm) = .ok (.setfModeAdd imm) ∧
      (imm.toNat ≤ 15 → exec (.setfModeAdd imm) s =
        .next (s.afterSet { s.chipState with filter := { s.chipState.filter with mode := s.chipState.filter.mode ||| bits imm 0 4 } })) ∧
      (15 < imm.toNat → exec (.setfModeAdd imm) s =
        .next (s.onlyResult (.err (.rangeError .mode imm.toNat))))) ∧
    (decodeCommand (commandWord 7 0 5 imm) = .ok (.setfModeRemove imm) ∧
      (imm.toNat ≤ 15 → exec (.setfModeRemove imm) s =
        .next (s.afterSet { s.chipState with filter := { s.chipState.filter with mode := s.chipState.filter.mode &&& ~~~(bits imm 0 4) } })) ∧
      (15 < imm.toNat → exec (.setfModeRemove imm) s =
        .next (s.onlyResult (.err (.rangeError .mode imm.toNat)))))

/-- For every state and immediate, and each of the three commands: its FSEL decodes to it; an immediate up to 15 is assigned to, united with or taken out of the target set with result Ok; a larger one returns RangeError(TARGETS, immediate); nothing else changes. -/
def Obligations.SetfTargetSets : Prop :=
  ∀ (s : State) (imm : U16),
    (decodeCommand (commandWord 7 0 6 imm) = .ok (.setfTargets imm) ∧
      (imm.toNat ≤ 15 → exec (.setfTargets imm) s =
        .next (s.afterSet { s.chipState with filter := { s.chipState.filter with targets := bits imm 0 4 } })) ∧
      (15 < imm.toNat → exec (.setfTargets imm) s =
        .next (s.onlyResult (.err (.rangeError .targets imm.toNat))))) ∧
    (decodeCommand (commandWord 7 0 7 imm) = .ok (.setfTargetsAdd imm) ∧
      (imm.toNat ≤ 15 → exec (.setfTargetsAdd imm) s =
        .next (s.afterSet { s.chipState with filter := { s.chipState.filter with targets := s.chipState.filter.targets ||| bits imm 0 4 } })) ∧
      (15 < imm.toNat → exec (.setfTargetsAdd imm) s =
        .next (s.onlyResult (.err (.rangeError .targets imm.toNat))))) ∧
    (decodeCommand (commandWord 7 0 8 imm) = .ok (.setfTargetsRemove imm) ∧
      (imm.toNat ≤ 15 → exec (.setfTargetsRemove imm) s =
        .next (s.afterSet { s.chipState with filter := { s.chipState.filter with targets := s.chipState.filter.targets &&& ~~~(bits imm 0 4) } })) ∧
      (15 < imm.toNat → exec (.setfTargetsRemove imm) s =
        .next (s.onlyResult (.err (.rangeError .targets imm.toNat)))))

/-- Each of the 19 SETV and SETF commands, in every state and with every operand, answers a next state that differs from the old one at most in S and in one delivered result; if the result is not Ok, S is unchanged; and the phase, the pin records, the trace and the chip image are as they were. -/
def Obligations.StateUpdatesReachNothingElse : Prop :=
  ∀ (s : State) (v : BitVec 2) (imm : U16),
    ∀ i ∈ ([.setvFreq v imm, .setvPw v imm, .setvAttack v imm, .setvDecay v imm,
        .setvSustain v imm, .setvRelease v imm, .setvShape v imm, .setvCflags v imm,
        .setvCflagsAdd v imm, .setvCflagsRemove v imm, .setfCutoff imm, .setfRes imm,
        .setfVol imm, .setfMode imm, .setfModeAdd imm, .setfModeRemove imm,
        .setfTargets imm, .setfTargetsAdd imm, .setfTargetsRemove imm] : List Instr),
      ∃ S r, exec i s = .next { s with chipState := S, results := s.results ++ [r] } ∧ (r ≠ .ok → S = s.chipState)

/-- For any two SETV or SETF commands that write different fields of S (the same field of different voices counts as different), in every state: running the first and then the second leaves the same S as running the second and then the first. -/
def Obligations.StateUpdatesOfDifferentFieldsCommute : Prop :=
  ∀ (i j : Instr) (a b : SetField) (s : State), setField? i = some a → setField? j = some b → a ≠ b →
    ∃ t u, runAll [i, j] s = some t ∧ runAll [j, i] s = some u ∧ t.chipState = u.chipState

/-- For every instruction, state and next state: if the result delivered is a RangeError, the next state is the old one with that result appended and nothing else changed. -/
def Obligations.RangeErrorChangesNothing : Prop :=
  ∀ (i : Instr) (s t : State) (f : FieldId) (x : Nat), exec i s = .next t →
    t.results = s.results ++ [.err (.rangeError f x)] → t = s.onlyResult (.err (.rangeError f x))

/-- For every command (not a frame) and every state: exec answers a next state whose new result is a RangeError if and only if the instruction is not well formed, that is, its voice index is 3 or its immediate is above its field's maximum. -/
def Obligations.RangeErrorExactlyWhenIllFormed : Prop :=
  ∀ (i : Instr) (s : State), i.conv? = none →
    ((∃ f x, exec i s = .next (s.onlyResult (.err (.rangeError f x)))) ↔ i.wellFormed = false)

/-- For every state and every command word that decodes to an instruction, whose OP is 2 or 6 and whose VSEL is 3: the instruction returns RangeError(VOICE_INDEX, 3) whatever the other fields are, and changes nothing else. -/
def Obligations.VoiceIndexErrorComesFirst : Prop :=
  ∀ (s : State) (w : CommandWord) (i : Instr), decodeCommand w = .ok i → (opField w = 2 ∨ opField w = 6) →
    vselField w = 3 → exec i s = .next (s.onlyResult (.err (.rangeError .voiceIndex 3)))

/-- For every envelope: enc_envelope gives exactly two bytes; bits 7:4 and 3:0 of the first are attack and decay, of the second sustain and release, and each byte equals 16 times its high magnitude plus the low one; all zero gives 00 00, all 15 gives FF FF, and 0, 0, 7, 0 gives 00 70. -/
def Obligations.EnvelopePayloadBytes : Prop :=
  (∀ e : Envelope, ∃ b0 b1, encEnvelope e = [b0, b1] ∧
    bits b0 4 4 = e.attack ∧ bits b0 0 4 = e.decay ∧ bits b1 4 4 = e.sustain ∧ bits b1 0 4 = e.release ∧
    b0.toNat = 16 * e.attack.toNat + e.decay.toNat ∧ b1.toNat = 16 * e.sustain.toNat + e.release.toNat) ∧
  encEnvelope ⟨0, 0, 0, 0⟩ = [0x00, 0x00] ∧ encEnvelope ⟨15, 15, 15, 15⟩ = [0xFF, 0xFF] ∧
  encEnvelope ⟨0, 0, 7, 0⟩ = [0x00, 0x70]

/-- For every control: bits 3:0 of enc_control are the flags, bits 7 to 4 are 1 exactly for noise, square, sawtooth and triangle in that order, the byte is 2 to the power 4 plus the shape's code plus the flags and at least 0x10; different controls give different bytes; noise with all flags gives 8F, triangle with none 10, square with none 40. -/
def Obligations.ControlPayloadByte : Prop :=
  (∀ c : Control, bits (encControl c) 0 4 = c.flags ∧
    ((encControl c).getLsbD 7 = true ↔ c.shape = .noise) ∧ ((encControl c).getLsbD 6 = true ↔ c.shape = .square) ∧
    ((encControl c).getLsbD 5 = true ↔ c.shape = .sawtooth) ∧ ((encControl c).getLsbD 4 = true ↔ c.shape = .triangle) ∧
    (encControl c).toNat = 2 ^ (4 + shapeCode c.shape) + c.flags.toNat ∧ 0x10 ≤ (encControl c).toNat) ∧
  (∀ c d : Control, encControl c = encControl d → c = d) ∧
  encControl ⟨.noise, 15⟩ = 0x8F ∧ encControl ⟨.triangle, 0⟩ = 0x10 ∧ encControl ⟨.square, 0⟩ = 0x40

/-- For every voice: enc_voice gives exactly seven bytes; the first two are the frequency with the low byte first, the next two the pulse width with the low byte first and bits 7:4 of the high byte zero, then the control byte, then the two envelope bytes; the corner cases of the rule and the payload of the reset voice are as the rule prints them. -/
def Obligations.VoicePayloadBytes : Prop :=
  (∀ x : Voice, ∃ b0 b1 b2 b3 e0 e1, encVoice x = [b0, b1, b2, b3, encControl x.ctrl, e0, e1] ∧
    encEnvelope x.env = [e0, e1] ∧ b0.toNat + 256 * b1.toNat = x.freq.toNat ∧
    b2.toNat + 256 * b3.toNat = x.pw.toNat ∧ bits b3 4 4 = 0) ∧
  (∀ x : Voice, x.freq = 0xFFFF → x.pw = 0xFFF → (encVoice x).take 4 = [0xFF, 0xFF, 0xFF, 0x0F]) ∧
  (∀ x : Voice, x.freq = 0x00FF → (encVoice x).take 2 = [0xFF, 0x00]) ∧
  (∀ x : Voice, x.freq = 0xFF00 → (encVoice x).take 2 = [0x00, 0xFF]) ∧
  (∀ x : Voice, x.freq = 0x1C71 → (encVoice x).take 2 = [0x71, 0x1C]) ∧
  encVoice Voice.reset = [0x31, 0x1C, 0x00, 0x08, 0x40, 0x00, 0x70]

/-- For every filter: enc_filter gives exactly four bytes; the cutoff is the low 3 bits in the first, whose bits 7:3 are zero, and the high 8 bits in the second; the third is resonance over targets and the fourth mode over volume; the corner cases of the rule and the payload of the reset filter are as the rule prints them. -/
def Obligations.FilterPayloadBytes : Prop :=
  (∀ f : Filter, ∃ b0 b1 b2 b3, encFilter f = [b0, b1, b2, b3] ∧ bits b0 3 5 = 0 ∧
    b0.toNat + 8 * b1.toNat = f.cutoff.toNat ∧ bits b2 4 4 = f.res ∧ bits b2 0 4 = f.targets ∧
    bits b3 4 4 = f.mode ∧ bits b3 0 4 = f.vol) ∧
  (∀ f : Filter, f.cutoff = 2047 → (encFilter f).take 2 = [0x07, 0xFF]) ∧
  (∀ f : Filter, f.cutoff = 7 → (encFilter f).take 2 = [0x07, 0x00]) ∧
  (∀ f : Filter, f.cutoff = 8 → (encFilter f).take 2 = [0x00, 0x01]) ∧
  (∀ f : Filter, f.mode = 0 → f.vol = 15 → (encFilter f).drop 3 = [0x0F]) ∧
  (∀ f : Filter, f.mode = 15 → f.vol = 0 → (encFilter f).drop 3 = [0xF0]) ∧
  encFilter Filter.reset = [0x00, 0x00, 0x00, 0x07]

/-- For envelopes, controls, voices and filters: the decoder gives x back from the payload of x, and whatever payload the decoder accepts is the payload of what it gives. -/
def Obligations.PayloadDecodersInvertEncoders : Prop :=
  (∀ e p, decEnvelope p = some e ↔ encEnvelope e = p) ∧ (∀ c b, decControl b = some c ↔ encControl c = b) ∧
  (∀ x p, decVoice p = some x ↔ encVoice x = p) ∧ ∀ f p, decFilter p = some f ↔ encFilter f = p

/-- base is 7 times the voice number and 21 for the filter; index_of is base plus the byte number; for every group and byte number below its payload's length the index is below 25 and belongs to that group and byte alone; and every index below 25 is the index of some group and byte. -/
def Obligations.GroupsCoverTheRegisters : Prop :=
  (∀ v, base (.voice v) = voiceNumber v * 7) ∧ base (.voice .v0) = 0 ∧ base (.voice .v1) = 7 ∧
  base (.voice .v2) = 14 ∧ base .filter = 21 ∧ (∀ g i, indexOf g i = base g + i) ∧ indexOf .filter 3 = 24 ∧
  (∀ S g h i j, i < (payloadOf S g).length → j < (payloadOf S h).length → indexOf g i = indexOf h j → g = h ∧ i = j) ∧
  ∀ S k, k < 25 ↔ ∃ g i, i < (payloadOf S g).length ∧ indexOf g i = k

/-- For every logical index below 25: the address byte is the index itself under LINEAR, at most 24; under SHIFTED it is the index shifted left by one, even and at most 48, for byte i of voice v the number (7v + i) times 2, and consecutive registers are 2 apart. -/
def Obligations.WireAddressOfEveryRegister : Prop :=
  (∀ k, k < 25 → (wireAddr .linear k).toNat = k ∧ (wireAddr .linear k).toNat ≤ 24 ∧
    (wireAddr .shifted k).toNat = k <<< 1 ∧ (wireAddr .shifted k).getLsbD 0 = false ∧
    (wireAddr .shifted k).toNat ≤ 48) ∧
  (∀ k, k < 24 → (wireAddr .shifted (k + 1)).toNat = (wireAddr .shifted k).toNat + 2) ∧
  ∀ v i, i < 7 → (wireAddr .shifted (indexOf (.voice v) i)).toNat = (7 * voiceNumber v + i) * 2

/-- Under each convention an address byte names register k if and only if k is below 25 and the byte is the address byte of k; under SHIFTED it signals reset if and only if bit 0 is set, which holds of every reset address; under LINEAR nothing signals reset; and the owner of index k is group g, byte i exactly when i is a byte of g and k is its index. -/
def Obligations.ObserverReadsBackTheWire : Prop :=
  (∀ conv a k, observe conv a = .register k ↔ (k < 25 ∧ wireAddr conv k = a)) ∧
  (∀ a, observe .shifted a = .resetSignal ↔ a.getLsbD 0 = true) ∧ (∀ a, observe .linear a ≠ .resetSignal) ∧
  (∀ index, observe .shifted (resetAddr index) = .resetSignal) ∧
  ∀ S k g i, ownerOf k = some (g, i) ↔ (i < (payloadOf S g).length ∧ indexOf g i = k)

/-- For N = 4, 11 and 12, every field identifier and every natural number x: below 2^N, mk_N gives a value whose val_N is x; from 2^N on, it gives RangeError(field, x); and mk_N of val_N of a value is that value. Every 16-bit frequency is legal. -/
def Obligations.ConstrainedIntegersFailAndNeverTruncate : Prop :=
  ∀ n ∈ [4, 11, 12], ∀ (f : FieldId),
    (∀ x, x < 2 ^ n → ∃ u : BitVec n, mkValue n f x = .ok u ∧ valOf u = x) ∧
    (∀ x, 2 ^ n ≤ x → mkValue n f x = .error (.rangeError f x)) ∧
    (∀ u : BitVec n, valOf u < 2 ^ n ∧ mkValue n f (valOf u) = .ok u) ∧
    ∀ imm : U16, freqOperand imm = .ok imm

/-- For all sets and flags of 4 bits: has(s, f) says that s and f share a bit, add is bitwise OR, remove is bitwise AND with the complement, raw is the set itself; add and remove are idempotent; remove(add(s, t), t) = remove(s, t); add(s, 0) = remove(s, 0) = s; and the named bits of the control flags, the modes and the targets are 1, 2, 4 and 8. That the four modes stand in the order LP, BP, HP, OFF3 is the spec's own decision D19 (R24, R146), which the model adopts as a design choice (log entry 17). -/
def Obligations.FlagSetOperations : Prop :=
  (∀ s f : U4, (flagHas s f = true ↔ s &&& f ≠ 0) ∧ flagAdd s f = s ||| f ∧ flagRemove s f = s &&& (~~~f &&& 0xF) ∧
    flagRaw s = s ∧ flagAdd (flagAdd s f) f = flagAdd s f ∧ flagRemove (flagRemove s f) f = flagRemove s f ∧
    flagRemove (flagAdd s f) f = flagRemove s f ∧ flagAdd s 0 = s ∧ flagRemove s 0 = s) ∧
  [flagGate, flagSync, flagRing, flagTest] = [1, 2, 4, 8] ∧ [modeLp, modeBp, modeHp, modeOff3] = [1, 2, 4, 8] ∧
  [targetV1, targetV2, targetV3, targetExt] = [1, 2, 4, 8]

/-- For every state and voice 0 to 2, WRITE_VOICE answers the next state whose trace has grown by the events of the group write of that voice's payload as it stands, with phase IDLE and no frame due, chip-select record HIGH, one result, the reset line record as it was, and nothing else changed; the chip image reads payload byte i at index_of(voice, i) and every other index as before. Voice index 3 returns RangeError(VOICE_INDEX, 3) and changes nothing else. The chip image is the ghost of decision D20. -/
def Obligations.WriteVoiceSendsItsSevenRegisters : Prop :=
  ∀ s : State,
    (∀ ix, let g := Group.voice ix
      let p := encVoice (s.chipState.voice ix)
      let es := groupEvents s.cfg g p
      exec (.writeVoice (vselOf ix)) s = .next (s.afterCalls es) ∧
      (s.afterCalls es).cs = .driven .high ∧ (s.afterCalls es).rst = s.rst ∧
      (∀ i, i < 7 → Memory.read (indexOf g i) (s.afterCalls es).chip = p[i]?) ∧
      ∀ k, (∀ i, i < 7 → k ≠ indexOf g i) → Memory.read k (s.afterCalls es).chip = Memory.read k s.chip) ∧
    exec (.writeVoice 3) s = .next (s.onlyResult (.err (.rangeError .voiceIndex 3)))

/-- For every state, WRITE_FILTER answers the next state whose trace has grown by the events of the group write of the filter's payload as it stands, with phase IDLE and no frame due, chip-select record HIGH, one result, the reset line record as it was, and nothing else changed; the chip image reads payload byte i at index_of(filter, i) and every other index as before. -/
def Obligations.WriteFilterSendsItsFourRegisters : Prop :=
  ∀ s : State, let p := encFilter s.chipState.filter
    let es := groupEvents s.cfg .filter p
    exec .writeFilter s = .next (s.afterCalls es) ∧
    (s.afterCalls es).cs = .driven .high ∧ (s.afterCalls es).rst = s.rst ∧
    (∀ i, i < 4 → Memory.read (indexOf .filter i) (s.afterCalls es).chip = p[i]?) ∧
    ∀ k, (∀ i, i < 4 → k ≠ indexOf .filter i) → Memory.read k (s.afterCalls es).chip = Memory.read k s.chip

/-- For every state, WRITE_ALL_VOICES answers the next state whose trace has grown by the group writes of voices 0, 1, 2 in that order, with phase IDLE and no frame due, chip-select record HIGH, one result, the reset line record as it was, and nothing else changed; the chip image reads the payload byte of its owner at every index below 21 and every other index as before. -/
def Obligations.WriteAllVoicesSendsTwentyOneRegisters : Prop :=
  ∀ s : State, let es := voicesEvents s.cfg s.chipState
    exec .writeAllVoices s = .next (s.afterCalls es) ∧
    (s.afterCalls es).cs = .driven .high ∧ (s.afterCalls es).rst = s.rst ∧
    (∀ k, k < 21 → Memory.read k (s.afterCalls es).chip = imageByte s.chipState k) ∧
    ∀ k, 21 ≤ k → Memory.read k (s.afterCalls es).chip = Memory.read k s.chip

/-- For every state, INITIALIZE answers the next state whose trace has grown by the three voice writes and then the filter write, with phase IDLE and no frame due, chip-select record HIGH, one result, the reset line record as it was, and nothing else changed; at every index below 25 the chip image reads a known byte, the payload byte of that index's owner, so that indices 0 to 24 in order read the three voice payloads and then the filter payload; other indices are as before. -/
def Obligations.InitializeMakesTheImageMatchTheState : Prop :=
  ∀ s : State, let es := initializeEvents s.cfg s.chipState
    exec .initializeChip s = .next (s.afterCalls es) ∧
    (s.afterCalls es).cs = .driven .high ∧ (s.afterCalls es).rst = s.rst ∧
    (∀ k, k < 25 → ∃ b, imageByte s.chipState k = some b ∧ Memory.read k (s.afterCalls es).chip = some b) ∧
    (List.range 25).mapM (fun k => Memory.read k (s.afterCalls es).chip) =
      some (encVoice s.chipState.v0 ++ encVoice s.chipState.v1 ++ encVoice s.chipState.v2 ++
        encFilter s.chipState.filter) ∧
    ∀ k, 25 ≤ k → Memory.read k (s.afterCalls es).chip = Memory.read k s.chip

/-- For every state: running WRITE_VOICE 0, 1, 2 one after another, and running WRITE_ALL_VOICES then WRITE_FILTER, each end in a state that equals the one WRITE_ALL_VOICES, respectively INITIALIZE, ends in, but for the list of delivered results. -/
def Obligations.CompositeCommandsAreTheirParts : Prop :=
  ∀ s : State,
    (∃ t u, exec .writeAllVoices s = .next t ∧ runAll [.writeVoice 0, .writeVoice 1, .writeVoice 2] s = some u ∧
      t = { u with results := t.results }) ∧
    ∃ t u, exec .initializeChip s = .next t ∧ runAll [.writeAllVoices, .writeFilter] s = some u ∧
      t = { u with results := t.results }

/-- In every state with CONV = LINEAR, RESET answers the next state whose trace has grown by RST(LOW), DELAY(T_RESET_LINE, ms), RST(HIGH), with phase IDLE and no frame due, reset line record HIGH, every entry of the chip image unknown, one result, and everything else, S and the chip-select record among it, as it was; with a well-formed configuration the delay is at least 10. -/
def Obligations.ResetUnderLinearPulsesTheLine : Prop :=
  ∀ s : State, s.cfg.conv = .linear →
    let es := [Event.rst .low, .delay s.cfg.tResetLine .ms, .rst .high]
    exec .reset s = .next { s with phase := .idle, due := none, rst := .driven .high, trace := s.trace ++ es, chip := [], results := s.results ++ [callResult s es] } ∧
    (∀ k, Memory.read k (s.afterCalls es).chip = none) ∧ (s.cfg.wf = true → 10 ≤ s.cfg.tResetLine)

/-- In every state with CONV = SHIFTED, RESET answers the next state whose trace has grown by CS(LOW), TX of the reset address and RESET_FRAME_DATA, DELAY(T_RESET_SHIFTED, us), CS(HIGH), with phase IDLE and no frame due, chip-select record HIGH, every entry of the chip image unknown, one result, and everything else, S and the reset line record among it, as it was; the address byte has bit 0 set; with a well-formed configuration the delay is at least 12 and bits 7:1 of the address byte are RESET_FRAME_INDEX. -/
def Obligations.ResetUnderShiftedSendsTheResetFrame : Prop :=
  ∀ s : State, s.cfg.conv = .shifted →
    let a := resetAddr s.cfg.resetFrameIndex
    let es := [Event.cs .low, .tx [a, s.cfg.resetFrameData], .delay s.cfg.tResetShifted .us, .cs .high]
    exec .reset s = .next { s with phase := .idle, due := none, cs := .driven .high, trace := s.trace ++ es, chip := [], results := s.results ++ [callResult s es] } ∧
    (∀ k, Memory.read k (s.afterCalls es).chip = none) ∧ a.getLsbD 0 = true ∧
    (s.cfg.wf = true → 12 ≤ s.cfg.tResetShifted ∧ (bits a 1 7).toNat = s.cfg.resetFrameIndex)

/-- For every configuration and S, the events of INITIALIZE hold exactly 25 TX and 50 bytes; under PER_REGISTER 25 CS(LOW) and 25 CS(HIGH), 75 events in all without settle time and 100 with it; under PER_GROUP 4 and 4, 33 events without settle time and 37 with it. -/
def Obligations.InitializeEventCounts : Prop :=
  ∀ (c : Config) (S : ChipState), let es := initializeEvents c S
    (sentBytes es).length = 50 ∧ es.countP (fun e => match e with | .tx _ => true | _ => false) = 25 ∧
    (c.framing = .perRegister → es.count (.cs .low) = 25 ∧ es.count (.cs .high) = 25 ∧
      (c.tSettle = 0 → es.length = 75) ∧ (0 < c.tSettle → es.length = 100)) ∧
    (c.framing = .perGroup → es.count (.cs .low) = 4 ∧ es.count (.cs .high) = 4 ∧
      (c.tSettle = 0 → es.length = 33) ∧ (0 < c.tSettle → es.length = 37))

/-- For every configuration, group and payload: the bytes of the group write, concatenated, are for each payload byte i the address byte of base plus i and then the byte, whichever value FRAMING has. -/
def Obligations.FramingsSendTheSameBytes : Prop :=
  ∀ (c : Config) (g : Group) (p : List Byte),
    sentBytes (groupEvents c g p) = (p.zipIdx (base g)).flatMap (fun x => [wireAddr c.conv x.2, x.1]) ∧
    ∀ f, sentBytes (groupEvents { c with framing := f } g p) = sentBytes (groupEvents c g p)

/-- For every command (not a frame), state and next state: the delivered result is TransportError if and only if SURFACE_ERRORS is true and the environment failed one of the TX, CS or RST calls the command appended to the trace. The outcome of a call is the free value Config.callFails (log entry 8); the statement holds for every choice of it. -/
def Obligations.TransportErrorExactlyWhenSurfacedFailure : Prop :=
  ∀ (i : Instr) (s t : State), i.conv? = none → exec i s = .next t →
    (t.results = s.results ++ [.err .transportError] ↔
      (s.cfg.surfaceErrors = true ∧ ∃ n e, s.trace.length ≤ n ∧ t.trace[n]? = some e ∧ fallible e = true ∧
        Config.callFails n = true))

/-- For every instruction and state, and either value of SURFACE_ERRORS: the instruction answers the next state it answers with the other value, but for that parameter and the result delivered; a frame, which is a part of a command, delivers none. -/
def Obligations.SurfaceErrorsChangesTheResultOnly : Prop :=
  ∀ (i : Instr) (s t : State) (b : Bool), exec i s = .next t →
    ∃ rs, exec i (s.setCfg { s.cfg with surfaceErrors := b }) =
        .next { t with cfg := { s.cfg with surfaceErrors := b }, results := s.results ++ rs } ∧
      rs.length = if i.conv? = none then 1 else 0

/-- For every state: after WRITE_VOICE of voice 0 to 2, the seven entries of the chip image at that voice's indices are known and dec_voice of them is the held voice; after WRITE_FILTER, the four entries at the filter's indices are known and dec_filter of them is the held filter. -/
def Obligations.WrittenImageDecodesToTheHeldState : Prop :=
  ∀ s : State,
    (∀ ix, ∃ t p, exec (.writeVoice (vselOf ix)) s = .next t ∧
      (List.range 7).mapM (fun i => Memory.read (indexOf (.voice ix) i) t.chip) = some p ∧
      decVoice p = some (s.chipState.voice ix)) ∧
    ∃ t p, exec .writeFilter s = .next t ∧
      (List.range 4).mapM (fun i => Memory.read (indexOf .filter i) t.chip) = some p ∧
      decFilter p = some s.chipState.filter

/-- For every state, voice 0 to 2 and frequency f: SETV.FREQ answers a next state with the chip image and the trace unchanged, and WRITE_VOICE of that voice in it answers a next state whose chip image reads the low byte of f at index 7v and the high byte at index 7v + 1. -/
def Obligations.UpdateReachesTheImageOnlyByWriting : Prop :=
  ∀ (s : State) (ix : VoiceIx) (f : U16), ∃ t u, exec (.setvFreq (vselOf ix) f) s = .next t ∧ t.chip = s.chip ∧
    t.trace = s.trace ∧ exec (.writeVoice (vselOf ix)) t = .next u ∧
    Memory.read (7 * voiceNumber ix) u.chip = some (bits f 0 8) ∧
    Memory.read (7 * voiceNumber ix + 1) u.chip = some (bits f 8 8)

/-- For every state and every ChipState x: the commands for x run one after another, each answers a next state, and afterwards S is x, every result delivered is Ok, and nothing but S and the results has changed. -/
def Obligations.DetachedCommandsLoadTheState : Prop :=
  ∀ (s : State) (x : ChipState), ∃ t, runAll (detachedCommands x) s = some t ∧
    t = { s with chipState := x, results := s.results ++ List.replicate (detachedCommands x).length .ok }

/-- For every configuration, after NEW: each voice has frequency 7217, pulse width 2048, envelope 0, 0, 7, 0, shape square and no flag; the filter has cutoff 0, resonance 0, volume 7, no mode, no target; the phase is UNINIT, both pin records UNDRIVEN, no frame due, pc 0, the trace empty, and every entry of the chip image unknown. The configuration is the one given. The rows of the pin records, pc, the trace and the chip image are the spec's own decisions D9, D18 and D20, the default frequency and mode D24; that no frame is due is read from R26 (log entry 22). -/
def Obligations.ResetStateOfTheBlock : Prop :=
  ∀ c : Config, let s := State.resetWith c
    s.cfg = c ∧
    (∀ ix, s.chipState.voice ix = { freq := 7217, pw := 2048, env := { attack := 0, decay := 0, sustain := 7, release := 0 }, ctrl := { shape := .square, flags := 0 } }) ∧
    s.chipState.filter = { cutoff := 0, res := 0, vol := 7, mode := 0, targets := 0 } ∧
    s.phase = .uninit ∧ s.cs = .undriven ∧ s.rst = .undriven ∧ s.due = none ∧ s.pc = 0 ∧ s.trace = [] ∧
    ∀ k, Memory.read k s.chip = none

/-- Inv holds of the state after NEW for every configuration that meets the constraints, and of State.reset. -/
def Obligations.RunInvariantAtReset : Prop :=
  (∀ c : Config, c.wf = true → Inv (State.resetWith c)) ∧ Inv State.reset

/-- From every state in which Inv holds, whatever the command word at pc is, a step that answers a next state answers one in which Inv holds: the trace keeps the discipline of R199 under both conventions and both framings with nothing left open, the phase is UNINIT exactly while the trace is empty and IDLE after, no frame is due, the pin records are the last levels commanded, the chip image is what the trace determines, in canonical form, and there is one result for every command run. The list of results is the model's record (log entry 12). -/
def Obligations.EveryStepKeepsTheRunInvariant : Prop :=
  ∀ s t : State, Inv s → step s = .next t → Inv t

/-- From every state whose chip image is in canonical form (indices strictly rising, each below 25), a step that answers a next state answers one whose chip image is in canonical form. -/
def Obligations.EveryStepKeepsTheImageCanonical : Prop :=
  ∀ s t : State, Memory.wf s.chip = true → step s = .next t → Memory.wf t.chip = true

/-- For every state: a step that answers a next state leaves every parameter, CONV among them, and the program as they were, and pc is one more, but for a frame inside a command (a frame is due), which leaves pc. That the parameters stand in the state is the model's choice (log entry 2), and so is the step inside a command (log entry 22). -/
def Obligations.NoStepChangesTheConfiguration : Prop :=
  ∀ s t : State, step s = .next t → t.cfg = s.cfg ∧ t.program = s.program ∧
    t.pc = if s.due = none then s.pc + 1 else s.pc

/-- For every state: a step that answers a next state appends a list of events to the trace and, between commands (no frame due), exactly one result to the results, inside a command none; and the chip image and the pin records are what those events make of the old ones. The list of results is the model's record (log entry 12). -/
def Obligations.TraceAndResultsOnlyGrow : Prop :=
  ∀ s t : State, step s = .next t → ∃ es rs, t.trace = s.trace ++ es ∧ t.results = s.results ++ rs ∧
    rs.length = (if s.due = none then 1 else 0) ∧
    t.chip = imageAfter s.cfg.conv s.chip es ∧ t.cs = csAfter s.cs es ∧ t.rst = rstAfter s.rst es

/-- For every instruction that is no SETV or SETF command, in every state: if it answers a next state, S is unchanged in it. -/
def Obligations.OnlyStateUpdatesChangeS : Prop :=
  ∀ (i : Instr) (s t : State), setField? i = none → exec i s = .next t → t.chipState = s.chipState

/-- The properties (a) to (g) of R199; (h) is in FramingsSendTheSameBytes and (i) in StepRaisesIllegalCommand, StateUpdatesReachNothingElse, RangeErrorChangesNothing and ResetStateOfTheBlock. For every well-formed configuration and every trace that keeps the discipline: every TX has exactly 2 bytes and lies between a CS(LOW) and a CS(HIGH) (before it, chip-select was last commanded low); every CS event commands the other level than the CS event before it, and the first commands low; at the end chip-select was never driven or is high; RST events occur under LINEAR only, RST(LOW) being followed at once, and RST(HIGH) preceded at once, by RST(LOW), a DELAY of at least 10 ms, RST(HIGH) in that order; under SHIFTED a TX with an odd address byte follows at once on a CS(LOW) and is followed at once by a DELAY of at least 12 us and CS(HIGH); every DELAY has the unit of CONV. -/
def Obligations.BusDisciplineGivesR199AToG : Prop :=
  ∀ (c : Config) (tr : List Event), c.wf = true → BusSafe c tr →
    (∀ pre p post, tr = pre ++ .tx p :: post → p.length = 2 ∧ csAfter .undriven pre = .driven .low) ∧
    (∀ pre l post, tr = pre ++ .cs l :: post →
      if l = .low then csAfter .undriven pre ≠ .driven .low else csAfter .undriven pre = .driven .low) ∧
    csAfter .undriven tr ≠ .driven .low ∧
    (∀ l, .rst l ∈ tr → c.conv = .linear) ∧
    (∀ pre post, tr = pre ++ .rst .low :: post → ∃ n rest, post = .delay n .ms :: .rst .high :: rest ∧ 10 ≤ n) ∧
    (∀ pre post, tr = pre ++ .rst .high :: post → ∃ first n, pre = first ++ [.rst .low, .delay n .ms] ∧ 10 ≤ n) ∧
    (∀ pre a d post, c.conv = .shifted → a.getLsbD 0 = true → tr = pre ++ .tx [a, d] :: post →
      (∃ first, pre = first ++ [.cs .low]) ∧ ∃ n rest, post = .delay n .us :: .cs .high :: rest ∧ 12 ≤ n) ∧
    ∀ n u, .delay n u ∈ tr → u = unitOf c.conv

/-- For both conventions, every data byte and each of the 25 register rows of that convention, which encodes to its address byte and the data byte: in every state of a block of the convention, in phase TRANSMITTING with chip-select LOW, where that frame is due, and with a data byte the block writes there (the row is well formed), exec answers the next state in which TX of the address byte and the data byte was appended to the trace, the frame is no longer due, the chip image reads the data byte at the row's index and every other index as before, and nothing else changed. And the register write of R183 for that index and byte, in a command under way (phase TRANSMITTING), is chip-select low, this row, chip-select high, and the settle delay if there is one. That the frame due stands in the state is the model's choice (log entries 4, 22). -/
def Obligations.RegisterFramesAreSentInsideTheirCommand : Prop :=
  ∀ (conv : Conv) (d : Byte) (s : State), s.cfg.conv = conv → s.phase = .transmitting →
    ∀ p ∈ frameRows conv d,
      let f := wireAddr conv p.2 ++ d
      let t := s.afterFrame (wireAddr conv p.2) d
      encode p.1 = .frame f ∧
      (p.1.wellFormed = true → s.cs = .driven .low → s.due = some f → exec p.1 s = .next t ∧
        ∀ k, Memory.read k t.chip = if k = p.2 then some d else Memory.read k s.chip) ∧
      (p.1.wellFormed = true → ∃ u, exec p.1 ((driveCs .low s).setDue (some f)) = .next u ∧
        writeReg p.2 d s = settle (driveCs .high u))

/-- In every state with CONV = SHIFTED, in phase RESETTING with chip-select LOW, where the reset frame of the block's RESET_FRAME_INDEX and RESET_FRAME_DATA is due, the row with those two as operands answers the next state in which TX of its address byte and data byte was appended to the trace, no frame is due, every entry of the chip image is unknown, and nothing else changed; bits 7:1 of the address byte are the index and bit 0 is 1. And the reset procedure of R197 in phase RESETTING is chip-select low, this row, DELAY(T_RESET_SHIFTED, us), chip-select high. That the frame due stands in the state is the model's choice (log entries 4, 22). -/
def Obligations.ResetFrameRowIsSentInsideReset : Prop :=
  ∀ (s : State) (index : BitVec 7) (d : Byte), s.cfg.conv = .shifted → s.phase = .resetting →
    index.toNat = s.cfg.resetFrameIndex → d = s.cfg.resetFrameData →
    let f := resetAddr index.toNat ++ d
    let t := s.afterFrame (resetAddr index.toNat) d
    encode (.frameShiftedReset index d) = .frame f ∧
    (s.cs = .driven .low → s.due = some f → exec (.frameShiftedReset index d) s = .next t ∧
      ∀ k, Memory.read k t.chip = none) ∧
    (∃ u, exec (.frameShiftedReset index d) ((driveCs .low s).setDue (some f)) = .next u ∧
      resetFrame s = driveCs .high (emit (.delay s.cfg.tResetShifted .us) u)) ∧
    bits (resetAddr index.toNat) 1 7 = index ∧ (resetAddr index.toNat).getLsbD 0 = true

/-- For every frame row of a convention and every state: in a block of the other convention exec refuses with conventionMismatch; else, if the block never sends the frame (its data byte breaks R90 (a) or (b), or it is a reset frame that is not the block's own), exec refuses with frameNeverSent; else, where the phase is that of the command that sends it (RESETTING for the reset frame, TRANSMITTING else), chip-select is LOW and this frame is due, exec answers a next state; everywhere else it refuses with frameOutsideCommand. The refusals are the model's choice for what the spec says does not happen (log entries 4, 5, 6). -/
def Obligations.FramesRunOnlyWhereTheBlockSendsThem : Prop :=
  ∀ (i : Instr) (conv : Conv) (f : FrameWord) (s : State), i.conv? = some conv → encode i = .frame f →
    if s.cfg.conv ≠ conv then exec i s = .refused .conventionMismatch
    else if ownFrame i s.cfg = false then exec i s = .refused .frameNeverSent
    else if s.phase = framePhase i ∧ s.cs = .driven .low ∧ s.due = some f then ∃ t, exec i s = .next t
    else exec i s = .refused .frameOutsideCommand

/-- For every command (not a frame) and every state with a well-formed configuration in which it answers a next state: every TX it appended to the trace carries an address byte and a data byte that decode, in the block's convention, to a well-formed frame row (PW_HI with bits 7:4 zero, FC_LO with bits 7:3 zero, CONTROL with exactly one of bits 7:4 set, never an address byte outside the table); and if that row is the reset frame, the command is RESET and the row's index and data byte are RESET_FRAME_INDEX and RESET_FRAME_DATA. -/
def Obligations.EveryTransmissionIsAFrameOfTheTable : Prop :=
  ∀ (i : Instr) (s t : State), i.conv? = none → s.cfg.wf = true → exec i s = .next t →
    ∃ es, t.trace = s.trace ++ es ∧ ∀ p, .tx p ∈ es →
      ∃ a d j, p = [a, d] ∧ decodeFrame s.cfg.conv (a ++ d) = .ok j ∧ j.wellFormed = true ∧
        ∀ index b, j = .frameShiftedReset index b →
          i = .reset ∧ index.toNat = s.cfg.resetFrameIndex ∧ b = s.cfg.resetFrameData

/-- For every environment and all states s and t. The launch premises of t hold exactly when: no other component calls the capabilities (P1); the chip-select line is high when the first command starts (P2), and under LINEAR the reset line is (P3); the transport is initialised with a format that suits the device (P4); every call of the trace of t returns and a delay blocks at least as long as asked (P5); CONV, FRAMING, T_SETTLE, RESET_FRAME_INDEX and RESET_FRAME_DATA are the connected device's (P6). Where they hold and no TX, CS or RST call of the trace of t failed, whatever s is: if t follows s by INITIALIZE, the chip's register k, for every k below 25, holds the payload byte of S at k; by WRITE_VOICE v, its seven registers hold the payload of voice v and every other register the entry of CHIP at s, which is what it held at s if no frame was open there; by WRITE_FILTER, the same of its four registers; by WRITE_ALL_VOICES, the registers below 21 hold the voices' payload and the others the entry of CHIP at s, as before; by RESET, every register is unknown. Where one of these premises fails, and where the trace of t ends between a TX and its CS(HIGH) (a frame is open), nothing is claimed of any register; that is so after every frame row that answers a next state t, and not in a state where the run invariant holds. How the environment is written down is the model's choice (log entry 15); whether a call failed is the free value Config.callFails (log entry 8); the premise, and not a marking since the failure, is the model's choice between the two treatments of R226 (log entry 9). -/
def Obligations.ChipContentOnThePremises : Prop :=
  ∀ (env : Environment) (s t : State),
    (launchPremises env t = true ↔
      (env.foreignCalls = [] ∧ env.selectLevel = .high ∧ (t.cfg.conv = .linear → env.resetLevel = .high) ∧
        (∃ f, env.transport = some f ∧ f ∈ env.device.formats) ∧
        (∀ n e, t.trace[n]? = some e → env.returns n = true ∧ ∀ k u, e = .delay k u → k ≤ env.blocked n) ∧
        t.cfg.conv = env.device.conv ∧ t.cfg.framing = env.device.framing ∧ t.cfg.tSettle = env.device.settle ∧
        t.cfg.resetFrameIndex = env.device.resetIndex ∧ t.cfg.resetFrameData = env.device.resetData)) ∧
    (launchPremises env t = true → t.NoCallFailed →
      (exec .initializeChip s = .next t → ∀ k, k < 25 → t.chipContent env k = imageByte s.chipState k) ∧
      (∀ ix, exec (.writeVoice (vselOf ix)) s = .next t →
        (∀ i, i < 7 → t.chipContent env (indexOf (.voice ix) i) = (encVoice (s.chipState.voice ix))[i]?) ∧
        ∀ k, (∀ i, i < 7 → k ≠ indexOf (.voice ix) i) → t.chipContent env k = Memory.read k s.chip ∧
          (frameOpen s.trace = false → t.chipContent env k = s.chipContent env k)) ∧
      (exec .writeFilter s = .next t →
        (∀ i, i < 4 → t.chipContent env (indexOf .filter i) = (encFilter s.chipState.filter)[i]?) ∧
        ∀ k, (∀ i, i < 4 → k ≠ indexOf .filter i) → t.chipContent env k = Memory.read k s.chip ∧
          (frameOpen s.trace = false → t.chipContent env k = s.chipContent env k)) ∧
      (exec .writeAllVoices s = .next t →
        (∀ k, k < 21 → t.chipContent env k = imageByte s.chipState k) ∧
        ∀ k, 21 ≤ k → t.chipContent env k = Memory.read k s.chip ∧
          (frameOpen s.trace = false → t.chipContent env k = s.chipContent env k)) ∧
      (exec .reset s = .next t → ∀ k, t.chipContent env k = none)) ∧
    (¬ (launchPremises env t = true ∧ t.NoCallFailed ∧ frameOpen t.trace = false) → ∀ k, t.chipContent env k = none) ∧
    (∀ i, i.conv? ≠ none → exec i s = .next t → frameOpen t.trace = true ∧ ∀ k, t.chipContent env k = none) ∧
    (Inv t → frameOpen t.trace = false)
end

