-- ==== Sys2Proof/Laws/AddressMap.lean ====
section
/-! SUPPORT. The laws of the address map (spec/42_address_map.md): the observer reads back what the block sends. -/

namespace Sys2Proof.Machine

theorem wireAddr_linear_toNat {k : Nat} (h : k < nRegs) : (wireAddr .linear k).toNat = k := by
  simp [wireAddr, nRegs] at *; omega

theorem wireAddr_shifted_toNat {k : Nat} (h : k < nRegs) : (wireAddr .shifted k).toNat = 2 * k := by
  simp [wireAddr, nRegs, Nat.shiftLeft_eq] at *; omega

/-- An ordinary frame to register `k` is read back as register `k` (R163, R166). -/
theorem observe_wireAddr (conv : Conv) {k : Nat} (h : k < nRegs) : observe conv (wireAddr conv k) = .register k := by
  cases conv
  · simp [observe, wireAddr_linear_toNat h, h]
  · have e := wireAddr_shifted_toNat h
    have b : (wireAddr .shifted k).getLsbD 0 = false := by
      rw [BitVec.getLsbD, e]; simp [Nat.testBit]
    have q : (2 * k) >>> 1 = k := by rw [Nat.shiftRight_eq_div_pow]; omega
    simp only [observe, b, e, q, Bool.false_eq_true, if_false, if_pos h]

/-- The reset frame's address byte is read back as the reset signal (R164, R166). -/
theorem observe_resetAddr (index : Nat) : observe .shifted (resetAddr index) = .resetSignal := by
  simp [observe, resetAddr]

/-- Under `LINEAR` no address byte signals reset. -/
theorem observe_linear_ne_reset (a : Byte) : observe .linear a ≠ .resetSignal := by
  unfold observe; simp only; split <;> simp

theorem base_lt (g : Group) : base g + (match g with | .voice _ => voiceLen | .filter => filterLen) ≤ nRegs := by
  cases g with
  | voice v => cases v <;> simp [base, voiceNumber, voiceStride, voiceLen, nRegs]
  | filter => simp [base, filterBase, filterLen, nRegs]

@[simp] theorem encVoice_length (x : Voice) : (encVoice x).length = voiceLen := rfl

@[simp] theorem encFilter_length (f : Filter) : (encFilter f).length = filterLen := rfl

/-- A group's payload fits the registers from its base on (R55, R162). -/
theorem base_add_payload_le (S : ChipState) (g : Group) : base g + (payloadOf S g).length ≤ nRegs := by
  cases g with
  | voice v => simpa [payloadOf] using base_lt (.voice v)
  | filter => simpa [payloadOf] using base_lt .filter

end Sys2Proof.Machine
end

