-- ==== Sys2Proof/Laws/Memory.lean ====
section
/-! SUPPORT. The laws of the chip image as a memory: read after write, the canonical form is kept by every operation, and
what an event does to it (spec/20_memory.md R50, R57). -/

namespace Sys2Proof.Machine

/-- A register just written reads as written, and every other one reads as before. -/
theorem Memory.read_write (j k : Nat) (d : Byte) (m : List Host.Cell) :
    Memory.read j (Memory.write k d m) = if j = k then some d else Memory.read j m := by
  induction m with
  | nil => by_cases h : j = k <;> simp [Memory.write, Memory.read, h, eq_comm]
  | cons c m ih =>
    unfold Memory.write
    by_cases h1 : k < c.1
    · by_cases h : j = k
      · simp [h1, Memory.read, h]
      · simp [h1, Memory.read, h, Ne.symm h]
    · by_cases h2 : k = c.1
      · by_cases h : j = k
        · simp [Memory.read, h, ← h2]
        · have : ¬ c.1 = j := fun e => h (e ▸ h2.symm)
          simp [Memory.read, h, ← h2, Ne.symm h]
      · by_cases h : j = k
        · subst h
          have : ¬ c.1 = j := fun e => h2 e.symm
          simp [h1, h2, Memory.read, this, ih]
        · simp [h1, h2, Memory.read, ih, h]

@[simp] theorem Memory.read_forget (k : Nat) (m : List Host.Cell) : Memory.read k (Memory.forget m) = none := rfl

@[simp] theorem Memory.wf_forget (m : List Host.Cell) : Memory.wf (Memory.forget m) = true := rfl

/-- The canonical form of a list that starts with `c`: `c` is a register, the rest is canonical, and the rest starts
above `c`. -/
theorem Memory.wf_cons (c : Host.Cell) (m : List Host.Cell) :
    Memory.wf (c :: m) = true ↔ c.1 < nRegs ∧ Memory.wf m = true ∧ ∀ x ∈ m.head?, c.1 < x.1 := by
  cases m with
  | nil => simp [Memory.wf]
  | cons x m => simp [Memory.wf]; tauto

/-- The first index of a written list is the written one or the old first one. -/
theorem Memory.head_write (k : Nat) (d : Byte) (m : List Host.Cell) (x : Host.Cell)
    (h : x ∈ (Memory.write k d m).head?) : x.1 = k ∨ x ∈ m.head? := by
  cases m with
  | nil => simp [Memory.write] at h; simp [← h]
  | cons c m =>
    unfold Memory.write at h
    split at h
    · simp at h; simp [← h]
    · split at h
      · simp at h; simp [← h]
      · simp at h; simp [← h]

/-- A write to a register keeps the canonical form. -/
theorem Memory.wf_write {k : Nat} (hk : k < nRegs) (d : Byte) {m : List Host.Cell} (h : Memory.wf m = true) :
    Memory.wf (Memory.write k d m) = true := by
  induction m with
  | nil => simp [Memory.write, Memory.wf, hk]
  | cons c m ih =>
    obtain ⟨hc, hm, hlt⟩ := (Memory.wf_cons c m).mp h
    unfold Memory.write
    split
    · rename_i h1
      exact (Memory.wf_cons _ _).mpr ⟨hk, h, by simpa using h1⟩
    · split
      · rename_i h2
        exact (Memory.wf_cons _ _).mpr ⟨hk, hm, fun x hx => by simpa [h2] using hlt x hx⟩
      · rename_i h1 h2
        refine (Memory.wf_cons _ _).mpr ⟨hc, ih hm, fun x hx => ?_⟩
        rcases Memory.head_write k d m x hx with e | e
        · omega
        · exact hlt x e

/-- The registers an address byte can name (R166). -/
theorem observe_register_lt {conv : Conv} {a : Byte} {k : Nat} (h : observe conv a = .register k) : k < nRegs := by
  unfold observe at h
  cases conv
  · simp only at h
    split at h
    · cases h; assumption
    · cases h
  · simp only at h
    split at h
    · cases h
    · split at h
      · cases h; assumption
      · cases h

/-- Every event keeps the canonical form of the chip image. -/
theorem Memory.wf_after (conv : Conv) (e : Event) {m : List Host.Cell} (h : Memory.wf m = true) :
    Memory.wf (Memory.after conv e m) = true := by
  unfold Memory.after
  split
  · split
    · exact Memory.wf_write (observe_register_lt (by assumption)) _ h
    · rfl
    · exact h
  all_goals first | exact h | rfl

/-- Every list of events keeps the canonical form of the chip image. -/
theorem wf_imageAfter (conv : Conv) (es : List Event) {m : List Host.Cell} (h : Memory.wf m = true) :
    Memory.wf (imageAfter conv m es) = true := by
  induction es generalizing m with
  | nil => exact h
  | cons e es ih => exact ih (Memory.wf_after conv e h)

@[simp] theorem imageAfter_nil (conv : Conv) (m : List Host.Cell) : imageAfter conv m [] = m := rfl

@[simp] theorem imageAfter_cons (conv : Conv) (m : List Host.Cell) (e : Event) (es : List Event) :
    imageAfter conv m (e :: es) = imageAfter conv (Memory.after conv e m) es := rfl

theorem imageAfter_append (conv : Conv) (m : List Host.Cell) (es fs : List Event) :
    imageAfter conv m (es ++ fs) = imageAfter conv (imageAfter conv m es) fs := by
  simp [imageAfter, List.foldl_append]

@[simp] theorem Memory.after_cs (conv : Conv) (l : Level) (m : List Host.Cell) : Memory.after conv (.cs l) m = m := rfl

@[simp] theorem Memory.after_delay (conv : Conv) (n : Nat) (u : DelayUnit) (m : List Host.Cell) :
    Memory.after conv (.delay n u) m = m := rfl

@[simp] theorem Memory.after_rst_low (conv : Conv) (m : List Host.Cell) : Memory.after conv (.rst .low) m = [] := rfl

@[simp] theorem Memory.after_rst_high (conv : Conv) (m : List Host.Cell) : Memory.after conv (.rst .high) m = m := rfl

end Sys2Proof.Machine
end

