-- ==== Sys2Proof/Laws/State.lean ====
section
/-! SUPPORT. One lemma per field per update of the state, so that no later proof unfolds a record update. -/

namespace Sys2Proof.Machine

@[simp] theorem State.setChipState_cfg (s : State) (x : ChipState) : (s.setChipState x).cfg = s.cfg := rfl
@[simp] theorem State.setChipState_program (s : State) (x : ChipState) : (s.setChipState x).program = s.program := rfl
@[simp] theorem State.setChipState_pc (s : State) (x : ChipState) : (s.setChipState x).pc = s.pc := rfl
@[simp] theorem State.setChipState_chipState (s : State) (x : ChipState) : (s.setChipState x).chipState = x := rfl
@[simp] theorem State.setChipState_phase (s : State) (x : ChipState) : (s.setChipState x).phase = s.phase := rfl
@[simp] theorem State.setChipState_cs (s : State) (x : ChipState) : (s.setChipState x).cs = s.cs := rfl
@[simp] theorem State.setChipState_rst (s : State) (x : ChipState) : (s.setChipState x).rst = s.rst := rfl
@[simp] theorem State.setChipState_due (s : State) (x : ChipState) : (s.setChipState x).due = s.due := rfl
@[simp] theorem State.setChipState_trace (s : State) (x : ChipState) : (s.setChipState x).trace = s.trace := rfl
@[simp] theorem State.setChipState_chip (s : State) (x : ChipState) : (s.setChipState x).chip = s.chip := rfl
@[simp] theorem State.setChipState_results (s : State) (x : ChipState) : (s.setChipState x).results = s.results := rfl

@[simp] theorem State.setPhase_cfg (s : State) (p : Phase) : (s.setPhase p).cfg = s.cfg := rfl
@[simp] theorem State.setPhase_program (s : State) (p : Phase) : (s.setPhase p).program = s.program := rfl
@[simp] theorem State.setPhase_pc (s : State) (p : Phase) : (s.setPhase p).pc = s.pc := rfl
@[simp] theorem State.setPhase_chipState (s : State) (p : Phase) : (s.setPhase p).chipState = s.chipState := rfl
@[simp] theorem State.setPhase_phase (s : State) (p : Phase) : (s.setPhase p).phase = p := rfl
@[simp] theorem State.setPhase_cs (s : State) (p : Phase) : (s.setPhase p).cs = s.cs := rfl
@[simp] theorem State.setPhase_rst (s : State) (p : Phase) : (s.setPhase p).rst = s.rst := rfl
@[simp] theorem State.setPhase_due (s : State) (p : Phase) : (s.setPhase p).due = s.due := rfl
@[simp] theorem State.setPhase_trace (s : State) (p : Phase) : (s.setPhase p).trace = s.trace := rfl
@[simp] theorem State.setPhase_chip (s : State) (p : Phase) : (s.setPhase p).chip = s.chip := rfl
@[simp] theorem State.setPhase_results (s : State) (p : Phase) : (s.setPhase p).results = s.results := rfl

@[simp] theorem State.setCs_cfg (s : State) (l : Level) : (s.setCs l).cfg = s.cfg := rfl
@[simp] theorem State.setCs_program (s : State) (l : Level) : (s.setCs l).program = s.program := rfl
@[simp] theorem State.setCs_pc (s : State) (l : Level) : (s.setCs l).pc = s.pc := rfl
@[simp] theorem State.setCs_chipState (s : State) (l : Level) : (s.setCs l).chipState = s.chipState := rfl
@[simp] theorem State.setCs_phase (s : State) (l : Level) : (s.setCs l).phase = s.phase := rfl
@[simp] theorem State.setCs_cs (s : State) (l : Level) : (s.setCs l).cs = .driven l := rfl
@[simp] theorem State.setCs_rst (s : State) (l : Level) : (s.setCs l).rst = s.rst := rfl
@[simp] theorem State.setCs_due (s : State) (l : Level) : (s.setCs l).due = s.due := rfl
@[simp] theorem State.setCs_trace (s : State) (l : Level) : (s.setCs l).trace = s.trace := rfl
@[simp] theorem State.setCs_chip (s : State) (l : Level) : (s.setCs l).chip = s.chip := rfl
@[simp] theorem State.setCs_results (s : State) (l : Level) : (s.setCs l).results = s.results := rfl

@[simp] theorem State.setRst_cfg (s : State) (l : Level) : (s.setRst l).cfg = s.cfg := rfl
@[simp] theorem State.setRst_program (s : State) (l : Level) : (s.setRst l).program = s.program := rfl
@[simp] theorem State.setRst_pc (s : State) (l : Level) : (s.setRst l).pc = s.pc := rfl
@[simp] theorem State.setRst_chipState (s : State) (l : Level) : (s.setRst l).chipState = s.chipState := rfl
@[simp] theorem State.setRst_phase (s : State) (l : Level) : (s.setRst l).phase = s.phase := rfl
@[simp] theorem State.setRst_cs (s : State) (l : Level) : (s.setRst l).cs = s.cs := rfl
@[simp] theorem State.setRst_rst (s : State) (l : Level) : (s.setRst l).rst = .driven l := rfl
@[simp] theorem State.setRst_due (s : State) (l : Level) : (s.setRst l).due = s.due := rfl
@[simp] theorem State.setRst_trace (s : State) (l : Level) : (s.setRst l).trace = s.trace := rfl
@[simp] theorem State.setRst_chip (s : State) (l : Level) : (s.setRst l).chip = s.chip := rfl
@[simp] theorem State.setRst_results (s : State) (l : Level) : (s.setRst l).results = s.results := rfl

@[simp] theorem State.setPc_cfg (s : State) (n : Nat) : (s.setPc n).cfg = s.cfg := rfl
@[simp] theorem State.setPc_program (s : State) (n : Nat) : (s.setPc n).program = s.program := rfl
@[simp] theorem State.setPc_pc (s : State) (n : Nat) : (s.setPc n).pc = n := rfl
@[simp] theorem State.setPc_chipState (s : State) (n : Nat) : (s.setPc n).chipState = s.chipState := rfl
@[simp] theorem State.setPc_phase (s : State) (n : Nat) : (s.setPc n).phase = s.phase := rfl
@[simp] theorem State.setPc_cs (s : State) (n : Nat) : (s.setPc n).cs = s.cs := rfl
@[simp] theorem State.setPc_rst (s : State) (n : Nat) : (s.setPc n).rst = s.rst := rfl
@[simp] theorem State.setPc_due (s : State) (n : Nat) : (s.setPc n).due = s.due := rfl
@[simp] theorem State.setPc_trace (s : State) (n : Nat) : (s.setPc n).trace = s.trace := rfl
@[simp] theorem State.setPc_chip (s : State) (n : Nat) : (s.setPc n).chip = s.chip := rfl
@[simp] theorem State.setPc_results (s : State) (n : Nat) : (s.setPc n).results = s.results := rfl

@[simp] theorem State.setProgram_cfg (s : State) (p : List CommandWord) : (s.setProgram p).cfg = s.cfg := rfl
@[simp] theorem State.setProgram_program (s : State) (p : List CommandWord) : (s.setProgram p).program = p := rfl
@[simp] theorem State.setProgram_pc (s : State) (p : List CommandWord) : (s.setProgram p).pc = s.pc := rfl
@[simp] theorem State.setProgram_chipState (s : State) (p : List CommandWord) : (s.setProgram p).chipState = s.chipState := rfl
@[simp] theorem State.setProgram_phase (s : State) (p : List CommandWord) : (s.setProgram p).phase = s.phase := rfl
@[simp] theorem State.setProgram_cs (s : State) (p : List CommandWord) : (s.setProgram p).cs = s.cs := rfl
@[simp] theorem State.setProgram_rst (s : State) (p : List CommandWord) : (s.setProgram p).rst = s.rst := rfl
@[simp] theorem State.setProgram_due (s : State) (p : List CommandWord) : (s.setProgram p).due = s.due := rfl
@[simp] theorem State.setProgram_trace (s : State) (p : List CommandWord) : (s.setProgram p).trace = s.trace := rfl
@[simp] theorem State.setProgram_chip (s : State) (p : List CommandWord) : (s.setProgram p).chip = s.chip := rfl
@[simp] theorem State.setProgram_results (s : State) (p : List CommandWord) : (s.setProgram p).results = s.results := rfl

@[simp] theorem State.setDue_cfg (s : State) (f : Option FrameWord) : (s.setDue f).cfg = s.cfg := rfl
@[simp] theorem State.setDue_program (s : State) (f : Option FrameWord) : (s.setDue f).program = s.program := rfl
@[simp] theorem State.setDue_pc (s : State) (f : Option FrameWord) : (s.setDue f).pc = s.pc := rfl
@[simp] theorem State.setDue_chipState (s : State) (f : Option FrameWord) : (s.setDue f).chipState = s.chipState := rfl
@[simp] theorem State.setDue_phase (s : State) (f : Option FrameWord) : (s.setDue f).phase = s.phase := rfl
@[simp] theorem State.setDue_cs (s : State) (f : Option FrameWord) : (s.setDue f).cs = s.cs := rfl
@[simp] theorem State.setDue_rst (s : State) (f : Option FrameWord) : (s.setDue f).rst = s.rst := rfl
@[simp] theorem State.setDue_due (s : State) (f : Option FrameWord) : (s.setDue f).due = f := rfl
@[simp] theorem State.setDue_trace (s : State) (f : Option FrameWord) : (s.setDue f).trace = s.trace := rfl
@[simp] theorem State.setDue_chip (s : State) (f : Option FrameWord) : (s.setDue f).chip = s.chip := rfl
@[simp] theorem State.setDue_results (s : State) (f : Option FrameWord) : (s.setDue f).results = s.results := rfl

@[simp] theorem State.setCfg_cfg (s : State) (c : Config) : (s.setCfg c).cfg = c := rfl
@[simp] theorem State.setCfg_program (s : State) (c : Config) : (s.setCfg c).program = s.program := rfl
@[simp] theorem State.setCfg_pc (s : State) (c : Config) : (s.setCfg c).pc = s.pc := rfl
@[simp] theorem State.setCfg_chipState (s : State) (c : Config) : (s.setCfg c).chipState = s.chipState := rfl
@[simp] theorem State.setCfg_phase (s : State) (c : Config) : (s.setCfg c).phase = s.phase := rfl
@[simp] theorem State.setCfg_cs (s : State) (c : Config) : (s.setCfg c).cs = s.cs := rfl
@[simp] theorem State.setCfg_rst (s : State) (c : Config) : (s.setCfg c).rst = s.rst := rfl
@[simp] theorem State.setCfg_due (s : State) (c : Config) : (s.setCfg c).due = s.due := rfl
@[simp] theorem State.setCfg_trace (s : State) (c : Config) : (s.setCfg c).trace = s.trace := rfl
@[simp] theorem State.setCfg_chip (s : State) (c : Config) : (s.setCfg c).chip = s.chip := rfl
@[simp] theorem State.setCfg_results (s : State) (c : Config) : (s.setCfg c).results = s.results := rfl

@[simp] theorem State.deliver_cfg (s : State) (r : Result) : (s.deliver r).cfg = s.cfg := rfl
@[simp] theorem State.deliver_program (s : State) (r : Result) : (s.deliver r).program = s.program := rfl
@[simp] theorem State.deliver_pc (s : State) (r : Result) : (s.deliver r).pc = s.pc := rfl
@[simp] theorem State.deliver_chipState (s : State) (r : Result) : (s.deliver r).chipState = s.chipState := rfl
@[simp] theorem State.deliver_phase (s : State) (r : Result) : (s.deliver r).phase = s.phase := rfl
@[simp] theorem State.deliver_cs (s : State) (r : Result) : (s.deliver r).cs = s.cs := rfl
@[simp] theorem State.deliver_rst (s : State) (r : Result) : (s.deliver r).rst = s.rst := rfl
@[simp] theorem State.deliver_due (s : State) (r : Result) : (s.deliver r).due = s.due := rfl
@[simp] theorem State.deliver_trace (s : State) (r : Result) : (s.deliver r).trace = s.trace := rfl
@[simp] theorem State.deliver_chip (s : State) (r : Result) : (s.deliver r).chip = s.chip := rfl
@[simp] theorem State.deliver_results (s : State) (r : Result) : (s.deliver r).results = s.results ++ [r] := rfl

@[simp] theorem emit_cfg (s : State) (e : Event) : (emit e s).cfg = s.cfg := rfl
@[simp] theorem emit_program (s : State) (e : Event) : (emit e s).program = s.program := rfl
@[simp] theorem emit_pc (s : State) (e : Event) : (emit e s).pc = s.pc := rfl
@[simp] theorem emit_chipState (s : State) (e : Event) : (emit e s).chipState = s.chipState := rfl
@[simp] theorem emit_phase (s : State) (e : Event) : (emit e s).phase = s.phase := rfl
@[simp] theorem emit_cs (s : State) (e : Event) : (emit e s).cs = s.cs := rfl
@[simp] theorem emit_rst (s : State) (e : Event) : (emit e s).rst = s.rst := rfl
@[simp] theorem emit_due (s : State) (e : Event) : (emit e s).due = s.due := rfl
@[simp] theorem emit_trace (s : State) (e : Event) : (emit e s).trace = s.trace ++ [e] := rfl
@[simp] theorem emit_chip (s : State) (e : Event) : (emit e s).chip = Memory.after s.cfg.conv e s.chip := rfl
@[simp] theorem emit_results (s : State) (e : Event) : (emit e s).results = s.results := rfl

@[simp] theorem transmit_cfg (a d : Byte) (s : State) : (transmit a d s).cfg = s.cfg := rfl
@[simp] theorem transmit_program (a d : Byte) (s : State) : (transmit a d s).program = s.program := rfl
@[simp] theorem transmit_pc (a d : Byte) (s : State) : (transmit a d s).pc = s.pc := rfl
@[simp] theorem transmit_chipState (a d : Byte) (s : State) : (transmit a d s).chipState = s.chipState := rfl
@[simp] theorem transmit_phase (a d : Byte) (s : State) : (transmit a d s).phase = s.phase := rfl
@[simp] theorem transmit_cs (a d : Byte) (s : State) : (transmit a d s).cs = s.cs := rfl
@[simp] theorem transmit_rst (a d : Byte) (s : State) : (transmit a d s).rst = s.rst := rfl
@[simp] theorem transmit_due (a d : Byte) (s : State) : (transmit a d s).due = none := rfl
@[simp] theorem transmit_trace (a d : Byte) (s : State) : (transmit a d s).trace = s.trace ++ [.tx [a, d]] := rfl
@[simp] theorem transmit_chip (a d : Byte) (s : State) : (transmit a d s).chip = Memory.after s.cfg.conv (.tx [a, d]) s.chip := rfl
@[simp] theorem transmit_results (a d : Byte) (s : State) : (transmit a d s).results = s.results := rfl

@[simp] theorem endCommand_cfg (s : State) : (endCommand s).cfg = s.cfg := rfl
@[simp] theorem endCommand_program (s : State) : (endCommand s).program = s.program := rfl
@[simp] theorem endCommand_pc (s : State) : (endCommand s).pc = s.pc := rfl
@[simp] theorem endCommand_chipState (s : State) : (endCommand s).chipState = s.chipState := rfl
@[simp] theorem endCommand_phase (s : State) : (endCommand s).phase = .idle := rfl
@[simp] theorem endCommand_cs (s : State) : (endCommand s).cs = s.cs := rfl
@[simp] theorem endCommand_rst (s : State) : (endCommand s).rst = s.rst := rfl
@[simp] theorem endCommand_due (s : State) : (endCommand s).due = none := rfl
@[simp] theorem endCommand_trace (s : State) : (endCommand s).trace = s.trace := rfl
@[simp] theorem endCommand_chip (s : State) : (endCommand s).chip = s.chip := rfl
@[simp] theorem endCommand_results (s : State) : (endCommand s).results = s.results := rfl

@[simp] theorem State.resetWith_cfg (c : Config) : (State.resetWith c).cfg = c := rfl
@[simp] theorem State.resetWith_program (c : Config) : (State.resetWith c).program = [] := rfl
@[simp] theorem State.resetWith_pc (c : Config) : (State.resetWith c).pc = 0 := rfl
@[simp] theorem State.resetWith_chipState (c : Config) : (State.resetWith c).chipState = ChipState.reset := rfl
@[simp] theorem State.resetWith_phase (c : Config) : (State.resetWith c).phase = .uninit := rfl
@[simp] theorem State.resetWith_cs (c : Config) : (State.resetWith c).cs = .undriven := rfl
@[simp] theorem State.resetWith_rst (c : Config) : (State.resetWith c).rst = .undriven := rfl
@[simp] theorem State.resetWith_due (c : Config) : (State.resetWith c).due = none := rfl
@[simp] theorem State.resetWith_trace (c : Config) : (State.resetWith c).trace = [] := rfl
@[simp] theorem State.resetWith_chip (c : Config) : (State.resetWith c).chip = [] := rfl
@[simp] theorem State.resetWith_results (c : Config) : (State.resetWith c).results = [] := rfl

/-! A voice of `S` after a voice is written (R20: no two fields alias). -/

@[simp] theorem ChipState.setVoice_filter (S : ChipState) (v : VoiceIx) (x : Voice) :
    (S.setVoice v x).filter = S.filter := by
  cases v <;> rfl

@[simp] theorem ChipState.voice_setVoice_same (S : ChipState) (v : VoiceIx) (x : Voice) :
    (S.setVoice v x).voice v = x := by
  cases v <;> rfl

theorem ChipState.voice_setVoice_other (S : ChipState) {v w : VoiceIx} (x : Voice) (h : w ≠ v) :
    (S.setVoice v x).voice w = S.voice w := by
  cases v <;> cases w <;> first | rfl | exact absurd rfl h

end Sys2Proof.Machine
end

