-- ==== Sys2Proof/Laws/Ops.lean ====
section
/-! SUPPORT. What each shared operation does, said once: the events it appends, what the chip image and the pin records
become, and that it changes nothing else. Proofs about a command cite these lemmas instead of unfolding its loops. -/

namespace Sys2Proof.Machine

/-- `t` is `s` after the capability calls `es` and nothing else, but for the phase and the frame that is due, which mark the
place inside a command. -/
structure Emits (s t : State) (es : List Event) : Prop where
  cfg : t.cfg = s.cfg
  program : t.program = s.program
  pc : t.pc = s.pc
  chipState : t.chipState = s.chipState
  results : t.results = s.results
  trace : t.trace = s.trace ++ es
  chip : t.chip = imageAfter s.cfg.conv s.chip es
  cs : t.cs = csAfter s.cs es
  rst : t.rst = rstAfter s.rst es

theorem csAfter_append (p : PinState) (es fs : List Event) : csAfter p (es ++ fs) = csAfter (csAfter p es) fs := by
  simp [csAfter, List.foldl_append]

theorem rstAfter_append (p : PinState) (es fs : List Event) : rstAfter p (es ++ fs) = rstAfter (rstAfter p es) fs := by
  simp [rstAfter, List.foldl_append]

theorem Emits.refl (s : State) : Emits s s [] := by
  constructor <;> simp [csAfter, rstAfter]

theorem Emits.trans {s t u : State} {es fs : List Event} (h : Emits s t es) (k : Emits t u fs) :
    Emits s u (es ++ fs) where
  cfg := k.cfg.trans h.cfg
  program := k.program.trans h.program
  pc := k.pc.trans h.pc
  chipState := k.chipState.trans h.chipState
  results := k.results.trans h.results
  trace := by rw [k.trace, h.trace, List.append_assoc]
  chip := by rw [k.chip, h.chip, h.cfg, imageAfter_append]
  cs := by rw [k.cs, h.cs, csAfter_append]
  rst := by rw [k.rst, h.rst, rstAfter_append]

/-- The phase is not among what `Emits` speaks of. -/
theorem Emits.setPhase {s t : State} {es : List Event} (h : Emits s t es) (p : Phase) : Emits s (t.setPhase p) es :=
  ⟨h.cfg, h.program, h.pc, h.chipState, h.results, h.trace, h.chip, h.cs, h.rst⟩

/-- Nor is the frame that is due. -/
theorem Emits.setDue {s t : State} {es : List Event} (h : Emits s t es) (f : Option FrameWord) :
    Emits s (t.setDue f) es :=
  ⟨h.cfg, h.program, h.pc, h.chipState, h.results, h.trace, h.chip, h.cs, h.rst⟩

theorem Emits.endCommand {s t : State} {es : List Event} (h : Emits s t es) : Emits s (endCommand t) es :=
  (h.setPhase .idle).setDue none

/-- The phase before is not either. -/
theorem Emits.ofSetPhase {s t : State} {es : List Event} {p : Phase} (h : Emits (s.setPhase p) t es) : Emits s t es :=
  ⟨h.cfg, h.program, h.pc, h.chipState, h.results, h.trace, h.chip, h.cs, h.rst⟩

/-- Nor is the frame that was due before. -/
theorem Emits.ofSetDue {s t : State} {es : List Event} {f : Option FrameWord} (h : Emits (s.setDue f) t es) :
    Emits s t es :=
  ⟨h.cfg, h.program, h.pc, h.chipState, h.results, h.trace, h.chip, h.cs, h.rst⟩

theorem emits_tx (s : State) (p : List Byte) : Emits s (emit (.tx p) s) [.tx p] := by
  constructor <;> simp [csAfter, rstAfter, csNext, rstNext]

theorem emits_delay (s : State) (n : Nat) (u : DelayUnit) : Emits s (emit (.delay n u) s) [.delay n u] := by
  constructor <;> simp [csAfter, rstAfter, csNext, rstNext]

theorem emits_driveCs (l : Level) (s : State) : Emits s (driveCs l s) [.cs l] := by
  constructor <;> simp [driveCs, csAfter, rstAfter, csNext, rstNext]

theorem emits_driveRst (l : Level) (s : State) : Emits s (driveRst l s) [.rst l] := by
  constructor <;> simp [driveRst, csAfter, rstAfter, csNext, rstNext]

theorem emits_settle (s : State) : Emits s (settle s) (settleEvents s.cfg) := by
  unfold settle settleEvents
  split
  · exact emits_delay ..
  · exact Emits.refl s

theorem emits_transmit (a d : Byte) (s : State) : Emits s (transmit a d s) [.tx [a, d]] :=
  (emits_tx s [a, d]).setDue none

theorem emits_sendByte (idx : Nat) (d : Byte) (s : State) :
    Emits s (sendByte idx d s) [.tx [wireAddr s.cfg.conv idx, d]] :=
  (emits_transmit (wireAddr s.cfg.conv idx) d _).ofSetDue

/-- `WriteReg(idx, d)` (R183). -/
theorem emits_writeReg (idx : Nat) (d : Byte) (s : State) : Emits s (writeReg idx d s) (writeRegEvents s.cfg idx d) := by
  have h1 := emits_driveCs .low s
  have h2 := h1.trans (emits_sendByte idx d _)
  have h3 := h2.trans (emits_driveCs .high _)
  have h4 := h3.trans (emits_settle _)
  rw [h3.cfg] at h4
  simpa [writeReg, writeRegEvents, h1.cfg] using h4

/-- The `PER_REGISTER` loop (R184). -/
theorem emits_writeRegs (g : Group) (p : List Byte) (i : Nat) (s : State) :
    Emits s (writeRegs g i p s) (registerEvents s.cfg (indexOf g i) p) := by
  induction p generalizing i s with
  | nil => exact Emits.refl s
  | cons d p ih =>
    have h := emits_writeReg (indexOf g i) d s
    have k := h.trans (ih (i + 1) _)
    rw [h.cfg] at k
    exact k

/-- The `PER_GROUP` loop (R184). -/
theorem emits_sendBytes (g : Group) (p : List Byte) (i : Nat) (s : State) :
    Emits s (sendBytes g i p s) (frameEvents s.cfg (indexOf g i) p) := by
  induction p generalizing i s with
  | nil => exact Emits.refl s
  | cons d p ih =>
    have h := emits_sendByte (indexOf g i) d s
    have k := h.trans (ih (i + 1) _)
    rw [h.cfg] at k
    exact k

/-- `WriteGroup(g, p)` without its phase changes (R184). -/
theorem emits_groupBurst (g : Group) (p : List Byte) (s : State) :
    Emits s (groupBurst g p s) (groupEvents s.cfg g p) := by
  unfold groupBurst groupEvents
  cases s.cfg.framing with
  | perRegister => exact emits_writeRegs g p 0 s
  | perGroup =>
    have h1 := emits_driveCs .low s
    have h2 := emits_sendBytes g p 0 (driveCs .low s)
    rw [h1.cfg] at h2
    have h3 := (h1.trans h2).trans (emits_driveCs .high _)
    have h4 := h3.trans (emits_settle _)
    rw [h3.cfg] at h4
    exact h4

/-- `WriteGroup(g, p)` (R184). -/
theorem emits_writeGroup (g : Group) (p : List Byte) (s : State) :
    Emits s (writeGroup g p s) (groupEvents s.cfg g p) :=
  ((emits_groupBurst g p (s.setPhase .transmitting)).ofSetPhase).endCommand

@[simp] theorem writeGroup_phase (g : Group) (p : List Byte) (s : State) : (writeGroup g p s).phase = .idle := rfl

/-- One group written from the state as it stands (R186, R188). -/
theorem emits_sendGroup (g : Group) (s : State) :
    Emits s (sendGroup g s) (groupEvents s.cfg g (payloadOf s.chipState g)) := emits_writeGroup ..

@[simp] theorem writeGroup_due (g : Group) (p : List Byte) (s : State) : (writeGroup g p s).due = none := rfl

@[simp] theorem sendGroup_phase (g : Group) (s : State) : (sendGroup g s).phase = .idle := rfl

/-- The three voices (R190). -/
theorem emits_sendVoices (s : State) : Emits s (sendVoices s) (voicesEvents s.cfg s.chipState) := by
  have h0 := emits_sendGroup (.voice .v0) s
  have h1 := emits_sendGroup (.voice .v1) (sendGroup (.voice .v0) s)
  rw [h0.cfg, h0.chipState] at h1
  have h01 := h0.trans h1
  have h2 := emits_sendGroup (.voice .v2) (sendGroup (.voice .v1) (sendGroup (.voice .v0) s))
  rw [h01.cfg, h01.chipState] at h2
  exact h01.trans h2

@[simp] theorem sendGroup_due (g : Group) (s : State) : (sendGroup g s).due = none := rfl

@[simp] theorem sendVoices_due (s : State) : (sendVoices s).due = none := rfl

@[simp] theorem sendVoices_phase (s : State) : (sendVoices s).phase = .idle := rfl

/-- Everything (R192). -/
theorem emits_initialize (s : State) :
    Emits s (sendGroup .filter (sendVoices s)) (initializeEvents s.cfg s.chipState) := by
  have h := emits_sendVoices s
  have k := emits_sendGroup .filter (sendVoices s)
  rw [h.cfg, h.chipState] at k
  exact h.trans k

/-- `ResetLine()` (R196). -/
theorem emits_resetLine (s : State) : Emits s (resetLine s) (resetLineEvents s.cfg) :=
  ((emits_driveRst .low s).trans (emits_delay _ s.cfg.tResetLine .ms)).trans (emits_driveRst .high _)

theorem emits_sendReset (s : State) :
    Emits s (sendReset s) [.tx [resetAddr s.cfg.resetFrameIndex, s.cfg.resetFrameData]] :=
  (emits_transmit _ _ _).ofSetDue

/-- `ResetFrame()` (R197). -/
theorem emits_resetFrame (s : State) :
    Emits s (resetFrame s) (resetFrameEvents s.cfg s.cfg.resetFrameIndex s.cfg.resetFrameData) :=
  (((emits_driveCs .low s).trans (emits_sendReset _)).trans
    (emits_delay _ s.cfg.tResetShifted .us)).trans (emits_driveCs .high _)

/-- The events of `RESET` (R195). -/
def resetEvents (c : Config) : List Event :=
  match c.conv with
  | .linear => resetLineEvents c
  | .shifted => resetFrameEvents c c.resetFrameIndex c.resetFrameData

theorem emits_resetChip (s : State) : Emits s (resetChip s) (resetEvents s.cfg) := by
  unfold resetChip resetEvents
  cases s.cfg.conv with
  | linear => exact emits_resetLine s
  | shifted => exact emits_resetFrame s

/-! ### The bus discipline of the event lists (R199) -/

theorem busRun_append (c : Config) (q : BusState) (es fs : List Event) :
    busRun c q (es ++ fs) = (busRun c q es).bind fun q' => busRun c q' fs := by
  induction es generalizing q with
  | nil => rfl
  | cons e es ih =>
    simp only [List.cons_append, busRun]
    cases busNext c q e with
    | none => rfl
    | some q' => exact ih q'

theorem BusSafe.append {c : Config} {es fs : List Event} (h : BusSafe c es) (k : BusSafe c fs) :
    BusSafe c (es ++ fs) := by
  unfold BusSafe at *
  rw [busRun_append, h]
  exact k

/-! The events the discipline accepts, one lemma each. -/

@[simp] theorem busNext_select (c : Config) : busNext c .released (.cs .low) = some .selected := rfl

@[simp] theorem busNext_line (c : Config) :
    busNext c .released (.rst .low) = if c.conv = .linear then some .lineLow else none := rfl

@[simp] theorem busNext_first (c : Config) (a d : Byte) : busNext c .selected (.tx [a, d]) = firstFrame c a := rfl

@[simp] theorem busNext_further (c : Config) (a d : Byte) : busNext c .sent (.tx [a, d]) = furtherFrame c a := rfl

@[simp] theorem busNext_release (c : Config) : busNext c .sent (.cs .high) = some (afterWrite c) := rfl

@[simp] theorem busNext_settle (c : Config) (n : Nat) (u : DelayUnit) :
    busNext c .settling (.delay n u) = if n = c.tSettle ∧ u = unitOf c.conv then some .released else none := rfl

@[simp] theorem busNext_resetHold (c : Config) (n : Nat) (u : DelayUnit) :
    busNext c .resetSent (.delay n u) = if n = c.tResetShifted ∧ u = .us then some .resetHeld else none := rfl

@[simp] theorem busNext_resetRelease (c : Config) : busNext c .resetHeld (.cs .high) = some .released := rfl

@[simp] theorem busNext_lineHold (c : Config) (n : Nat) (u : DelayUnit) :
    busNext c .lineLow (.delay n u) = if n = c.tResetLine ∧ u = .ms then some .lineHeld else none := rfl

@[simp] theorem busNext_lineRelease (c : Config) : busNext c .lineHeld (.rst .high) = some .released := rfl

@[simp] theorem busRun_nil (c : Config) (q : BusState) : busRun c q [] = some q := rfl

@[simp] theorem busRun_cons (c : Config) (q : BusState) (e : Event) (es : List Event) :
    busRun c q (e :: es) = (busNext c q e).bind fun q' => busRun c q' es := rfl

theorem firstFrame_wireAddr (c : Config) {idx : Nat} (h : idx < nRegs) :
    firstFrame c (wireAddr c.conv idx) = some .sent := by
  simp [firstFrame, observe_wireAddr c.conv h]

theorem furtherFrame_wireAddr {c : Config} (hf : c.framing = .perGroup) {idx : Nat} (h : idx < nRegs) :
    furtherFrame c (wireAddr c.conv idx) = some .sent := by
  simp [furtherFrame, hf, observe_wireAddr c.conv h]

theorem firstFrame_resetAddr {c : Config} (h : c.conv = .shifted) (index : Nat) :
    firstFrame c (resetAddr index) = some .resetSent := by
  simp [firstFrame, h, observe_resetAddr]

theorem busSafe_nil (c : Config) : BusSafe c [] := rfl

theorem busRun_settle (c : Config) : busRun c (afterWrite c) (settleEvents c) = some .released := by
  unfold afterWrite settleEvents
  split <;> simp

theorem busSafe_writeReg (c : Config) {idx : Nat} (h : idx < nRegs) (d : Byte) : BusSafe c (writeRegEvents c idx d) := by
  unfold BusSafe writeRegEvents
  rw [busRun_append]
  simp [firstFrame_wireAddr c h, busRun_settle]

theorem busSafe_registerEvents (c : Config) (p : List Byte) {idx : Nat} (h : idx + p.length ≤ nRegs) :
    BusSafe c (registerEvents c idx p) := by
  induction p generalizing idx with
  | nil => exact busSafe_nil c
  | cons d p ih =>
    simp only [List.length_cons] at h
    exact (busSafe_writeReg c (by omega) d).append (ih (by omega))

theorem busRun_frameEvents {c : Config} (hf : c.framing = .perGroup) (p : List Byte) {idx : Nat}
    (h : idx + p.length ≤ nRegs) : busRun c .sent (frameEvents c idx p) = some .sent := by
  induction p generalizing idx with
  | nil => rfl
  | cons d p ih =>
    simp only [List.length_cons] at h
    simp [frameEvents, furtherFrame_wireAddr hf (show idx < nRegs by omega),
      ih (show idx + 1 + p.length ≤ nRegs by omega)]

/-- A group write of at least one byte keeps the discipline (R199). -/
theorem busSafe_groupEvents (c : Config) (g : Group) {p : List Byte} (hp : p ≠ []) (h : base g + p.length ≤ nRegs) :
    BusSafe c (groupEvents c g p) := by
  unfold groupEvents
  cases hf : c.framing with
  | perRegister => exact busSafe_registerEvents c p h
  | perGroup =>
    obtain ⟨d, p, rfl⟩ := List.exists_cons_of_ne_nil hp
    simp only [List.length_cons] at h
    unfold BusSafe
    simp [busRun_append, frameEvents, firstFrame_wireAddr c (show base g < nRegs by omega),
      busRun_frameEvents hf p (show base g + 1 + p.length ≤ nRegs by omega), busRun_settle]

theorem payloadOf_ne_nil (S : ChipState) (g : Group) : payloadOf S g ≠ [] := by
  cases g <;> simp [payloadOf, encVoice, encFilter]

theorem busSafe_sendGroup (c : Config) (S : ChipState) (g : Group) : BusSafe c (groupEvents c g (payloadOf S g)) :=
  busSafe_groupEvents c g (payloadOf_ne_nil S g) (base_add_payload_le S g)

theorem busSafe_voices (c : Config) (S : ChipState) : BusSafe c (voicesEvents c S) :=
  ((busSafe_sendGroup c S (.voice .v0)).append (busSafe_sendGroup c S (.voice .v1))).append
    (busSafe_sendGroup c S (.voice .v2))

theorem busSafe_initialize (c : Config) (S : ChipState) : BusSafe c (initializeEvents c S) :=
  (busSafe_voices c S).append (busSafe_sendGroup c S .filter)

theorem busSafe_resetLine {c : Config} (h : c.conv = .linear) : BusSafe c (resetLineEvents c) := by
  simp [BusSafe, resetLineEvents, h]

theorem busSafe_resetFrame {c : Config} (h : c.conv = .shifted) (index : Nat) (d : Byte) :
    BusSafe c (resetFrameEvents c index d) := by
  simp [BusSafe, resetFrameEvents, firstFrame_resetAddr h]

theorem busSafe_reset (c : Config) : BusSafe c (resetEvents c) := by
  unfold resetEvents
  split
  · exact busSafe_resetLine (by assumption)
  · exact busSafe_resetFrame (by assumption) ..

/-! ### The chip image after the event lists (R57) -/

theorem imageAfter_settle (c : Config) (m : List Host.Cell) : imageAfter c.conv m (settleEvents c) = m := by
  unfold settleEvents
  split <;> simp

/-- An ordinary frame writes its register (R57). -/
theorem Memory.after_frame (conv : Conv) {k : Nat} (h : k < nRegs) (d : Byte) (m : List Host.Cell) :
    Memory.after conv (.tx [wireAddr conv k, d]) m = Memory.write k d m := by
  simp [Memory.after, observe_wireAddr conv h]

/-- The reset frame makes everything unknown (R57). -/
theorem Memory.after_reset (index : Nat) (d : Byte) (m : List Host.Cell) :
    Memory.after .shifted (.tx [resetAddr index, d]) m = [] := by
  simp [Memory.after, observe_resetAddr, Memory.forget]

theorem imageAfter_writeReg (c : Config) {idx : Nat} (h : idx < nRegs) (d : Byte) (m : List Host.Cell) :
    imageAfter c.conv m (writeRegEvents c idx d) = Memory.write idx d m := by
  simp [writeRegEvents, Memory.after_frame _ h, imageAfter_settle]

/-- What a register reads after the bytes `p` were written from `idx` on. -/
def readOver (idx : Nat) (p : List Byte) (m : List Host.Cell) (k : Nat) : Option Byte :=
  if idx ≤ k ∧ k < idx + p.length then p[k - idx]? else Memory.read k m

theorem readOver_cons (idx : Nat) (d : Byte) (p : List Byte) (m : List Host.Cell) (k : Nat) :
    readOver idx (d :: p) m k = readOver (idx + 1) p (Memory.write idx d m) k := by
  unfold readOver
  simp only [List.length_cons, Memory.read_write]
  by_cases h1 : k = idx
  · subst h1; simp
  · by_cases h2 : idx + 1 ≤ k ∧ k < idx + 1 + p.length
    · have : k - idx = (k - (idx + 1)) + 1 := by omega
      rw [if_pos (by omega), if_pos h2, this, List.getElem?_cons_succ]
    · rw [if_neg (by omega), if_neg h2, if_neg h1]

theorem read_registerEvents (c : Config) (p : List Byte) {idx : Nat} (h : idx + p.length ≤ nRegs)
    (m : List Host.Cell) (k : Nat) :
    Memory.read k (imageAfter c.conv m (registerEvents c idx p)) = readOver idx p m k := by
  induction p generalizing idx m with
  | nil => simp [registerEvents, readOver]
  | cons d p ih =>
    simp only [List.length_cons] at h
    rw [readOver_cons, registerEvents, imageAfter_append, imageAfter_writeReg c (by omega), ih (by omega)]

theorem read_frameEvents (c : Config) (p : List Byte) {idx : Nat} (h : idx + p.length ≤ nRegs)
    (m : List Host.Cell) (k : Nat) :
    Memory.read k (imageAfter c.conv m (frameEvents c idx p)) = readOver idx p m k := by
  induction p generalizing idx m with
  | nil => simp [frameEvents, readOver]
  | cons d p ih =>
    simp only [List.length_cons] at h
    rw [readOver_cons, frameEvents, imageAfter_cons, Memory.after_frame _ (by omega), ih (by omega)]

/-- A group write puts its payload into its registers and leaves every other one alone, under both framings (R56, R57). -/
theorem read_groupEvents (c : Config) (g : Group) {p : List Byte} (h : base g + p.length ≤ nRegs)
    (m : List Host.Cell) (k : Nat) :
    Memory.read k (imageAfter c.conv m (groupEvents c g p)) = readOver (base g) p m k := by
  unfold groupEvents
  cases c.framing with
  | perRegister => exact read_registerEvents c p h m k
  | perGroup => simp [imageAfter_append, imageAfter_settle, read_frameEvents c p h]

/-! ### The pin records after the event lists (R28) -/

theorem csAfter_settle (c : Config) (p : PinState) : csAfter p (settleEvents c) = p := by
  unfold settleEvents
  split <;> rfl

theorem rstAfter_settle (c : Config) (p : PinState) : rstAfter p (settleEvents c) = p := by
  unfold settleEvents
  split <;> rfl

theorem csAfter_writeReg (c : Config) (idx : Nat) (d : Byte) (p : PinState) :
    csAfter p (writeRegEvents c idx d) = .driven .high := by
  rw [writeRegEvents, csAfter_append, csAfter_settle]; rfl

theorem rstAfter_writeReg (c : Config) (idx : Nat) (d : Byte) (p : PinState) :
    rstAfter p (writeRegEvents c idx d) = p := by
  rw [writeRegEvents, rstAfter_append, rstAfter_settle]; rfl

theorem rstAfter_registerEvents (c : Config) (idx : Nat) (p : List Byte) (q : PinState) :
    rstAfter q (registerEvents c idx p) = q := by
  induction p generalizing idx with
  | nil => rfl
  | cons d p ih => rw [registerEvents, rstAfter_append, rstAfter_writeReg, ih]

theorem csAfter_registerEvents (c : Config) (idx : Nat) (p : List Byte) (q : PinState) :
    csAfter q (registerEvents c idx p) = if p = [] then q else .driven .high := by
  induction p generalizing idx q with
  | nil => rfl
  | cons d p ih => rw [registerEvents, csAfter_append, csAfter_writeReg, ih]; simp

theorem rstAfter_frameEvents (c : Config) (idx : Nat) (p : List Byte) (q : PinState) :
    rstAfter q (frameEvents c idx p) = q := by
  induction p generalizing idx with
  | nil => rfl
  | cons d p ih => exact ih (idx + 1)

/-- No group write touches the reset line (R196: it is driven by `RESET` only). -/
theorem rstAfter_groupEvents (c : Config) (g : Group) (p : List Byte) (q : PinState) :
    rstAfter q (groupEvents c g p) = q := by
  unfold groupEvents
  cases c.framing with
  | perRegister => exact rstAfter_registerEvents ..
  | perGroup =>
    simp only [rstAfter_append, rstAfter_settle]
    exact rstAfter_frameEvents c _ p q

/-- A group write leaves chip-select high (R199 (d)). -/
theorem csAfter_groupEvents (c : Config) (g : Group) {p : List Byte} (hp : p ≠ []) (q : PinState) :
    csAfter q (groupEvents c g p) = .driven .high := by
  unfold groupEvents
  cases c.framing with
  | perRegister => simp [csAfter_registerEvents, hp]
  | perGroup => rw [csAfter_append, csAfter_settle, csAfter_append]; rfl

end Sys2Proof.Machine
end

