-- ==== Sys2Proof/Laws/Exec.lean ====
section
/-! SUPPORT. What an instruction and a step can do, said once: every later proof about all instructions starts from
`exec_effect` and `step_cases` instead of unfolding the meanings. -/

namespace Sys2Proof.Machine

/-- `t` is `s` after one command: `S` may have changed and nothing was emitted, or some capability calls were made, the
phase is `IDLE` and no frame is due; either way one result was delivered. -/
def CommandEffect (s t : State) : Prop :=
  ∃ r, (∃ S, t = (s.setChipState S).deliver r) ∨
    ∃ u es, Emits s u es ∧ BusSafe s.cfg es ∧ es ≠ [] ∧ u.phase = .idle ∧ u.due = none ∧ t = u.deliver r

/-- `t` is `s` after one frame: it was due, inside a command, and was sent. -/
def FrameEffect (s t : State) : Prop :=
  ∃ a d, s.due = some (a ++ d) ∧ s.cs = .driven .low ∧ s.phase.transient = true ∧ t = transmit a d s

/-- `t` is `s` after the instruction `i`. -/
def Effect (i : Instr) (s t : State) : Prop :=
  match i.conv? with
  | none => CommandEffect s t
  | some _ => FrameEffect s t

theorem raise_effect {e : CommandError} {s t : State} (h : raise e s = .next t) : CommandEffect s t := by
  cases h
  exact ⟨_, .inl ⟨s.chipState, rfl⟩⟩

theorem complete_effect {s t : State} {S : ChipState} (h : complete (s.setChipState S) = .next t) :
    CommandEffect s t := by
  cases h
  exact ⟨_, .inl ⟨S, rfl⟩⟩

theorem finish_effect {s u t : State} {es : List Event} (h : finish s u = .next t) (he : Emits s u es)
    (hb : BusSafe s.cfg es) (hn : es ≠ []) (hp : u.phase = .idle) (hd : u.due = none) : CommandEffect s t := by
  cases h
  exact ⟨_, .inr ⟨u, es, he, hb, hn, hp, hd, rfl⟩⟩

theorem withOperand_effect {α : Type} {x : Except CommandError α} {s t : State}
    {k : α → Host.Outcome State Fault Refusal} (h : withOperand x s k = .next t)
    (hk : ∀ a, k a = .next t → CommandEffect s t) : CommandEffect s t := by
  cases x with
  | error e => exact raise_effect h
  | ok a => exact hk a h

theorem updateVoice_effect {α : Type} {v : BitVec 2} {x : Except CommandError α} {f : Voice → α → Voice} {s t : State}
    (h : updateVoice v x f s = .next t) : CommandEffect s t :=
  withOperand_effect h fun _ h => withOperand_effect h fun _ h => complete_effect h

theorem updateFilter_effect {α : Type} {x : Except CommandError α} {f : Filter → α → Filter} {s t : State}
    (h : updateFilter x f s = .next t) : CommandEffect s t :=
  withOperand_effect h fun _ h => complete_effect h

theorem groupEvents_ne_nil (c : Config) (S : ChipState) (g : Group) : groupEvents c g (payloadOf S g) ≠ [] := by
  obtain ⟨d, p, hp⟩ := List.exists_cons_of_ne_nil (payloadOf_ne_nil S g)
  unfold groupEvents
  cases c.framing <;> simp [hp, registerEvents, writeRegEvents]

theorem sendGroup_effect {g : Group} {s t : State} (h : finish s (sendGroup g s) = .next t) : CommandEffect s t :=
  finish_effect h (emits_sendGroup g s) (busSafe_sendGroup ..) (groupEvents_ne_nil s.cfg s.chipState g) rfl rfl

theorem voicesEvents_ne_nil (c : Config) (S : ChipState) : voicesEvents c S ≠ [] := by
  have h := groupEvents_ne_nil c S (.voice .v0)
  simp only [payloadOf, ChipState.voice] at h
  simp [voicesEvents, h]

theorem resetEvents_ne_nil (c : Config) : resetEvents c ≠ [] := by
  unfold resetEvents
  split <;> simp [resetLineEvents, resetFrameEvents]

theorem atFrame_spec {p : Phase} {f : FrameWord} {s : State} (h : atFrame p f s = true) :
    s.phase = p ∧ s.cs = .driven .low ∧ s.due = some f := by
  simpa [atFrame, and_assoc] using h

/-- A register frame row runs exactly in a block of its convention, with a byte the block writes there, where the command
under way is at that frame (R50, R90). -/
theorem runFrame_spec {conv : Conv} {idx : Nat} {ok : Bool} {d : Byte} {s t : State}
    (h : runFrame conv idx ok d s = .next t) :
    s.cfg.conv = conv ∧ ok = true ∧ atFrame .transmitting (wireAddr conv idx ++ d) s = true ∧
      t = transmit (wireAddr conv idx) d s := by
  unfold runFrame at h
  split at h
  · cases h
  · split at h
    · cases h
    · split at h
      · cases h
        exact ⟨by simp_all, by simp_all, by assumption, rfl⟩
      · cases h

theorem runResetFrame_spec {index : BitVec 7} {d : Byte} {s t : State} (h : runResetFrame index d s = .next t) :
    s.cfg.conv = .shifted ∧ ownResetFrame index d s.cfg = true ∧
      atFrame .resetting (resetAddr index.toNat ++ d) s = true ∧ t = transmit (resetAddr index.toNat) d s := by
  unfold runResetFrame at h
  split at h
  · cases h
  · split at h
    · cases h
    · split at h
      · cases h
        exact ⟨by simp_all, by simp_all, by assumption, rfl⟩
      · cases h

theorem runFrame_effect {conv : Conv} {idx : Nat} {ok : Bool} {d : Byte} {s t : State}
    (h : runFrame conv idx ok d s = .next t) : FrameEffect s t := by
  obtain ⟨-, -, hf, rfl⟩ := runFrame_spec h
  obtain ⟨hp, hc, hd⟩ := atFrame_spec hf
  exact ⟨_, _, hd, hc, by rw [hp]; rfl, rfl⟩

theorem runResetFrame_effect {index : BitVec 7} {d : Byte} {s t : State} (h : runResetFrame index d s = .next t) :
    FrameEffect s t := by
  obtain ⟨-, -, hf, rfl⟩ := runResetFrame_spec h
  obtain ⟨hp, hc, hd⟩ := atFrame_spec hf
  exact ⟨_, _, hd, hc, by rw [hp]; rfl, rfl⟩

/-- Every command that answers a next state has the effect of a command, every frame row that of a frame. -/
theorem exec_effect {i : Instr} {s t : State} (h : exec i s = .next t) : Effect i s t := by
  cases i with
  | reset =>
    exact finish_effect h (emits_resetChip (s.setPhase .resetting)).ofSetPhase.endCommand (busSafe_reset s.cfg)
      (resetEvents_ne_nil s.cfg) rfl rfl
  | writeVoice v => exact withOperand_effect h fun _ h => sendGroup_effect h
  | writeFilter => exact sendGroup_effect h
  | writeAllVoices =>
    exact finish_effect h (emits_sendVoices s) (busSafe_voices ..) (voicesEvents_ne_nil s.cfg s.chipState)
      rfl rfl
  | initializeChip =>
    exact finish_effect h (emits_initialize s) (busSafe_initialize ..) (by simp [initializeEvents, voicesEvents_ne_nil]) rfl
      rfl
  | setvFreq v imm =>
    unfold exec execSetvFreq at h
    exact updateVoice_effect h
  | setvPw v imm =>
    unfold exec execSetvPw at h
    exact updateVoice_effect h
  | setvAttack v imm =>
    unfold exec execSetvAttack at h
    exact updateVoice_effect h
  | setvDecay v imm =>
    unfold exec execSetvDecay at h
    exact updateVoice_effect h
  | setvSustain v imm =>
    unfold exec execSetvSustain at h
    exact updateVoice_effect h
  | setvRelease v imm =>
    unfold exec execSetvRelease at h
    exact updateVoice_effect h
  | setvShape v imm =>
    unfold exec execSetvShape at h
    exact updateVoice_effect h
  | setvCflags v imm =>
    unfold exec execSetvCflags at h
    exact updateVoice_effect h
  | setvCflagsAdd v imm =>
    unfold exec execSetvCflagsAdd at h
    exact updateVoice_effect h
  | setvCflagsRemove v imm =>
    unfold exec execSetvCflagsRemove at h
    exact updateVoice_effect h
  | setfCutoff imm =>
    unfold exec execSetfCutoff at h
    exact updateFilter_effect h
  | setfRes imm =>
    unfold exec execSetfRes at h
    exact updateFilter_effect h
  | setfVol imm =>
    unfold exec execSetfVol at h
    exact updateFilter_effect h
  | setfMode imm =>
    unfold exec execSetfMode at h
    exact updateFilter_effect h
  | setfModeAdd imm =>
    unfold exec execSetfModeAdd at h
    exact updateFilter_effect h
  | setfModeRemove imm =>
    unfold exec execSetfModeRemove at h
    exact updateFilter_effect h
  | setfTargets imm =>
    unfold exec execSetfTargets at h
    exact updateFilter_effect h
  | setfTargetsAdd imm =>
    unfold exec execSetfTargetsAdd at h
    exact updateFilter_effect h
  | setfTargetsRemove imm =>
    unfold exec execSetfTargetsRemove at h
    exact updateFilter_effect h
  | frameLinearV0FreqLo d => exact runFrame_effect h
  | frameLinearV0FreqHi d => exact runFrame_effect h
  | frameLinearV0PwLo d => exact runFrame_effect h
  | frameLinearV0PwHi d => exact runFrame_effect h
  | frameLinearV0Control d => exact runFrame_effect h
  | frameLinearV0AttackDecay d => exact runFrame_effect h
  | frameLinearV0SustainRelease d => exact runFrame_effect h
  | frameLinearV1FreqLo d => exact runFrame_effect h
  | frameLinearV1FreqHi d => exact runFrame_effect h
  | frameLinearV1PwLo d => exact runFrame_effect h
  | frameLinearV1PwHi d => exact runFrame_effect h
  | frameLinearV1Control d => exact runFrame_effect h
  | frameLinearV1AttackDecay d => exact runFrame_effect h
  | frameLinearV1SustainRelease d => exact runFrame_effect h
  | frameLinearV2FreqLo d => exact runFrame_effect h
  | frameLinearV2FreqHi d => exact runFrame_effect h
  | frameLinearV2PwLo d => exact runFrame_effect h
  | frameLinearV2PwHi d => exact runFrame_effect h
  | frameLinearV2Control d => exact runFrame_effect h
  | frameLinearV2AttackDecay d => exact runFrame_effect h
  | frameLinearV2SustainRelease d => exact runFrame_effect h
  | frameLinearFcLo d => exact runFrame_effect h
  | frameLinearFcHi d => exact runFrame_effect h
  | frameLinearResRoute d => exact runFrame_effect h
  | frameLinearModeVol d => exact runFrame_effect h
  | frameShiftedV0FreqLo d => exact runFrame_effect h
  | frameShiftedV0FreqHi d => exact runFrame_effect h
  | frameShiftedV0PwLo d => exact runFrame_effect h
  | frameShiftedV0PwHi d => exact runFrame_effect h
  | frameShiftedV0Control d => exact runFrame_effect h
  | frameShiftedV0AttackDecay d => exact runFrame_effect h
  | frameShiftedV0SustainRelease d => exact runFrame_effect h
  | frameShiftedV1FreqLo d => exact runFrame_effect h
  | frameShiftedV1FreqHi d => exact runFrame_effect h
  | frameShiftedV1PwLo d => exact runFrame_effect h
  | frameShiftedV1PwHi d => exact runFrame_effect h
  | frameShiftedV1Control d => exact runFrame_effect h
  | frameShiftedV1AttackDecay d => exact runFrame_effect h
  | frameShiftedV1SustainRelease d => exact runFrame_effect h
  | frameShiftedV2FreqLo d => exact runFrame_effect h
  | frameShiftedV2FreqHi d => exact runFrame_effect h
  | frameShiftedV2PwLo d => exact runFrame_effect h
  | frameShiftedV2PwHi d => exact runFrame_effect h
  | frameShiftedV2Control d => exact runFrame_effect h
  | frameShiftedV2AttackDecay d => exact runFrame_effect h
  | frameShiftedV2SustainRelease d => exact runFrame_effect h
  | frameShiftedFcLo d => exact runFrame_effect h
  | frameShiftedFcHi d => exact runFrame_effect h
  | frameShiftedResRoute d => exact runFrame_effect h
  | frameShiftedModeVol d => exact runFrame_effect h
  | frameShiftedReset index d => exact runResetFrame_effect h

/-- What a step that answers a next state did: it ran the instruction that the word at hand decodes to, or raised
`IllegalCommand` on a command word that is none; after a command the counter moved on. -/
theorem step_cases {s t : State} (h : step s = .next t) :
    s.cfg.wf = true ∧ insideCommand s = false ∧
      ((∃ slot i u, fetch s = some slot ∧ decodeSlot s.cfg.conv slot = .ok i ∧ exec i s = .next u ∧
          advance slot (.next u) = .next t) ∨
       ∃ w r, fetch s = some (.command w) ∧ decodeCommand w = .error r ∧
          t = (s.deliver (.err (.illegalCommand w))).setPc (s.pc + 1)) := by
  unfold step at h
  split at h
  · rename_i hw
    refine ⟨hw, ?_⟩
    split at h
    · cases h
    · rename_i hi
      refine ⟨by simpa using hi, ?_⟩
      split at h
      · cases h
      · rename_i slot hs
        split at h
        · rename_i i hd
          cases hx : exec i s with
          | next u => exact .inl ⟨slot, i, u, hs, hd, hx, hx ▸ h⟩
          | fault r => rw [hx] at h; cases h
          | refused r => rw [hx] at h; cases h
        · rename_i r hd
          cases slot with
          | command w =>
            cases h
            exact .inr ⟨w, r, hs, hd, rfl⟩
          | frame w => cases h
  · cases h

/-- A word that comes from the program is a command: no frame is due. -/
theorem fetch_command {s : State} {w : CommandWord} (h : fetch s = some (.command w)) :
    s.due = none ∧ s.program[s.pc]? = some w := by
  unfold fetch at h
  cases hd : s.due with
  | some f => rw [hd] at h; cases h
  | none => rw [hd] at h; simpa using h

theorem fetch_frame {s : State} {f : FrameWord} (h : fetch s = some (.frame f)) : s.due = some f := by
  unfold fetch at h
  cases hd : s.due with
  | some g => rw [hd] at h; cases h; rfl
  | none => rw [hd] at h; simp at h

/-- No command word decodes to a frame row, so a command has the effect of a command. -/
theorem decodeCommand_conv {w : CommandWord} {i : Instr} (h : decodeCommand w = .ok i) : i.conv? = none := by
  unfold decodeCommand at h
  split at h
  · cases h
  · split at h
    case h_1 | h_3 | h_4 | h_5 => unfold decodePlain at h; split at h <;> cases h; rfl
    case h_2 => unfold decodeWriteVoice at h; split at h <;> cases h; rfl
    case h_6 =>
      unfold decodeSetv at h
      split at h
      · rename_i f hf
        cases h
        have := List.mem_of_getElem? hf
        simp only [voiceFields, List.mem_cons, List.not_mem_nil, or_false] at this
        rcases this with rfl | rfl | rfl | rfl | rfl | rfl | rfl | rfl | rfl | rfl <;> rfl
      · cases h
    case h_7 =>
      unfold decodeSetf at h
      split at h
      · rename_i f hf
        split at h <;> cases h
        have := List.mem_of_getElem? hf
        simp only [filterFields, List.mem_cons, List.not_mem_nil, or_false] at this
        rcases this with rfl | rfl | rfl | rfl | rfl | rfl | rfl | rfl | rfl <;> rfl
      · cases h
    all_goals cases h

/-- A frame word decodes to a row of the block's convention (R76, R77). -/
theorem decodeFrame_conv {conv : Conv} {w : FrameWord} {i : Instr} (h : decodeFrame conv w = .ok i) :
    i.conv? = some conv := by
  unfold decodeFrame at h
  split at h
  · rename_i ho
    cases h
    cases conv with
    | linear => unfold observe at ho; simp only at ho; split at ho <;> cases ho
    | shifted => rfl
  · cases h
  · rename_i k _
    split at h
    · rename_i f hf
      cases h
      have := List.mem_of_getElem? (by cases conv <;> exact hf : (match conv with | .linear => linearFrames | .shifted => shiftedFrames)[k]? = some f)
      cases conv <;>
        simp only [linearFrames, linearFramesV0, linearFramesV1, linearFramesV2, linearFramesFilter, shiftedFrames,
          shiftedFramesV0, shiftedFramesV1, shiftedFramesV2, shiftedFramesFilter, List.cons_append, List.nil_append,
          List.mem_cons, List.not_mem_nil, or_false] at this
      all_goals
        rcases this with rfl | rfl | rfl | rfl | rfl | rfl | rfl | rfl | rfl | rfl | rfl | rfl | rfl | rfl | rfl | rfl |
          rfl | rfl | rfl | rfl | rfl | rfl | rfl | rfl | rfl <;> rfl
    · cases h

/-- What a command leaves alone: the configuration, the program, the counter. -/
theorem CommandEffect.frame {s t : State} (h : CommandEffect s t) :
    t.cfg = s.cfg ∧ t.program = s.program ∧ t.pc = s.pc := by
  obtain ⟨r, ⟨S, rfl⟩ | ⟨u, es, he, -, -, -, -, rfl⟩⟩ := h
  · exact ⟨rfl, rfl, rfl⟩
  · exact ⟨he.cfg, he.program, he.pc⟩

/-- Every step that answers a next state is a command from the program, after which the counter moves on, or the frame that
is due. -/
theorem step_effect {s t : State} (h : step s = .next t) :
    s.cfg.wf = true ∧
      ((s.due = none ∧ s.phase.transient = false ∧ ∃ u, CommandEffect s u ∧ t = u.setPc (s.pc + 1)) ∨
       (s.due ≠ none ∧ FrameEffect s t)) := by
  obtain ⟨hw, hi, ⟨slot, i, u, hs, hd, hx, ha⟩ | ⟨w, r, hs, -, rfl⟩⟩ := step_cases h
  · refine ⟨hw, ?_⟩
    have he := exec_effect hx
    cases slot with
    | command w =>
      have hn := (fetch_command hs).1
      rw [Effect, decodeCommand_conv hd] at he
      cases ha
      refine .inl ⟨hn, by simpa [insideCommand, hn] using hi, u, he, ?_⟩
      rw [he.frame.2.2]
    | frame f =>
      rw [Effect, decodeFrame_conv hd] at he
      cases ha
      exact .inr ⟨by rw [fetch_frame hs]; exact Option.some_ne_none f, he⟩
  · have hn := (fetch_command hs).1
    exact ⟨hw, .inl ⟨hn, by simpa [insideCommand, hn] using hi, _, raise_effect rfl, rfl⟩⟩

end Sys2Proof.Machine
end

