-- ==== Sys2Proof/Laws/Environment.lean ====
section
/-! SUPPORT. The premises of a claim about the real chip (R254, R226): what holds of a trace holds of its beginning. When a
frame is open (R57): never after a write or between the commands of a run. What `State.chipContent` says with all this and
without it. -/

namespace Sys2Proof.Machine

theorem Environment.callsReturn_append (env : Environment) (n : Nat) (es fs : List Event) :
    env.callsReturn n (es ++ fs) = (env.callsReturn n es && env.callsReturn (n + es.length) fs) := by
  induction es generalizing n with
  | nil => simp [Environment.callsReturn]
  | cons e es ih => simp [Environment.callsReturn, ih, Bool.and_assoc, Nat.add_comm, Nat.add_left_comm]

theorem anyCallFailed_append (n : Nat) (es fs : List Event) :
    anyCallFailed n (es ++ fs) = (anyCallFailed n es || anyCallFailed (n + es.length) fs) := by
  induction es generalizing n with
  | nil => simp [anyCallFailed]
  | cons e es ih => simp [anyCallFailed, ih, Bool.or_assoc, Nat.add_comm, Nat.add_left_comm]

/-- A run that meets the launch premises met them before its last events too. -/
theorem launchPremises_of_append {env : Environment} {s t : State} {es : List Event} (h : launchPremises env t = true)
    (hc : t.cfg = s.cfg) (he : t.trace = s.trace ++ es) : launchPremises env s = true := by
  unfold launchPremises at *
  rw [hc, he, Environment.callsReturn_append] at h
  simp only [Bool.and_eq_true] at *
  exact ⟨⟨h.1.1, h.1.2.1⟩, h.2⟩

/-! ### Open frames (R57) -/

/-- `frameOpen` of a trace that goes on from one where a frame is open or not. -/
def openAfter (isOpen : Bool) (es : List Event) : Bool := es.foldl frameOpenNext isOpen

theorem openAfter_append (isOpen : Bool) (es fs : List Event) :
    openAfter isOpen (es ++ fs) = openAfter (openAfter isOpen es) fs := List.foldl_append

theorem frameOpen_append (es fs : List Event) : frameOpen (es ++ fs) = openAfter (frameOpen es) fs := List.foldl_append

theorem frameOpen_concat_tx (es : List Event) (p : List Byte) : frameOpen (es ++ [.tx p]) = true := by
  rw [frameOpen_append]; rfl

theorem openAfter_settle (c : Config) (b : Bool) : openAfter b (settleEvents c) = b := by
  unfold settleEvents
  split <;> rfl

theorem openAfter_writeReg (c : Config) (idx : Nat) (d : Byte) (b : Bool) :
    openAfter b (writeRegEvents c idx d) = false := by
  rw [writeRegEvents, openAfter_append, openAfter_settle]
  rfl

theorem openAfter_registerEvents (c : Config) (p : List Byte) (idx : Nat) (b : Bool) :
    openAfter b (registerEvents c idx p) = if p = [] then b else false := by
  induction p generalizing idx b with
  | nil => rfl
  | cons d p ih => rw [registerEvents, openAfter_append, openAfter_writeReg, ih]; simp

/-- A group write ends with every frame released (R199 (d)). -/
theorem openAfter_groupEvents (c : Config) (g : Group) {p : List Byte} (hp : p ≠ []) (b : Bool) :
    openAfter b (groupEvents c g p) = false := by
  unfold groupEvents
  cases c.framing with
  | perRegister => simp [openAfter_registerEvents, hp]
  | perGroup => rw [openAfter_append, openAfter_settle, openAfter_append]; rfl

/-- Where a trace that keeps the discipline stands with a frame open. -/
def BusState.isOpen : BusState → Bool
  | .released => false
  | .selected => false
  | .sent => true
  | .settling => false
  | .resetSent => true
  | .resetHeld => true
  | .lineLow => false
  | .lineHeld => false

theorem firstFrame_isOpen {c : Config} {a : Byte} {r : BusState} (h : firstFrame c a = some r) : r.isOpen = true := by
  unfold firstFrame at h
  split at h <;> cases h <;> rfl

theorem furtherFrame_isOpen {c : Config} {a : Byte} {r : BusState} (h : furtherFrame c a = some r) : r.isOpen = true := by
  unfold furtherFrame at h
  split at h
  · cases h; rfl
  · cases h

theorem afterWrite_isOpen (c : Config) : (afterWrite c).isOpen = false := by
  unfold afterWrite
  split
  · rfl
  · rfl

theorem isOpen_of_tx {c : Config} {q r : BusState} {p : List Byte} (h : busNext c q (.tx p) = some r) :
    r.isOpen = true := by
  rcases p with _ | ⟨a, _ | ⟨d, _ | _⟩⟩ <;> cases q <;> first
    | exact firstFrame_isOpen h
    | exact furtherFrame_isOpen h
    | cases h

theorem frameOpenNext_busNext {c : Config} {q r : BusState} {e : Event} (h : busNext c q e = some r) :
    frameOpenNext q.isOpen e = r.isOpen := by
  rcases e with (_ | _) | (_ | _) | p | ⟨n, u⟩
  case tx => rw [isOpen_of_tx h]; rfl
  case cs.high =>
    cases q <;> first | (cases h; exact (afterWrite_isOpen c).symm) | (cases h; rfl) | cases h
  all_goals
    cases q <;> first
      | (cases h; rfl)
      | cases h
      | (replace h := (Option.ite_none_right_eq_some.mp h).2; cases h; rfl)

theorem openAfter_busRun {c : Config} {q r : BusState} {es : List Event} (h : busRun c q es = some r) :
    openAfter q.isOpen es = r.isOpen := by
  induction es generalizing q with
  | nil => cases h; rfl
  | cons e es ih =>
    obtain ⟨m, hm, hr⟩ := Option.bind_eq_some_iff.mp h
    rw [openAfter, List.foldl_cons, frameOpenNext_busNext hm]
    exact ih hr

/-- Between two commands of a run no frame is open (R199), so that `State.chipContent` is not silent for this reason. -/
theorem BusSafe.frameOpen {c : Config} {es : List Event} (h : BusSafe c es) : frameOpen es = false := openAfter_busRun h

/-! ### The chip's content -/

theorem chipContent_of_premises {env : Environment} {s : State} (h : launchPremises env s = true)
    (hf : anyCallFailed 0 s.trace = false) (ho : frameOpen s.trace = false) (k : Nat) :
    s.chipContent env k = Memory.read k s.chip := by
  simp [State.chipContent, h, hf, ho]

theorem chipContent_of_failed_premise {env : Environment} {s : State} (h : launchPremises env s = false) (k : Nat) :
    s.chipContent env k = none := by
  simp [State.chipContent, h]

theorem chipContent_of_failed_call {env : Environment} {s : State} (h : anyCallFailed 0 s.trace = true) (k : Nat) :
    s.chipContent env k = none := by
  simp [State.chipContent, h]

theorem chipContent_of_frameOpen {env : Environment} {s : State} (h : frameOpen s.trace = true) (k : Nat) :
    s.chipContent env k = none := by
  simp [State.chipContent, h]

end Sys2Proof.Machine
end

