-- ==== Sys2Proof/Laws/PerInstr.lean ====
section
/-! SUPPORT. One family of lemmas over the instructions as terms of the table: the word or frame that `encode` writes has the
fixed bits of its row of spec/opcode_table.json (spec/30_encoding.md R76, R77, R85). -/

namespace Sys2Proof.Laws

/-- The fixed bits of a row: a word of the row agrees with `pattern` on `mask`. -/
inductive Row where
  | command (pattern mask : CommandWord)
  | frame (pattern mask : FrameWord)

/-- The row of an instruction, copied from the `match` and `mask` columns of spec/opcode_table.json. -/
def rowOf : Instr → Row
  | .reset => .command 0x10000000 0xFFFFFFFF
  | .writeVoice _ => .command 0x20000000 0xF3FFFFFF
  | .writeFilter => .command 0x30000000 0xFFFFFFFF
  | .writeAllVoices => .command 0x40000000 0xFFFFFFFF
  | .initializeChip => .command 0x50000000 0xFFFFFFFF
  | .setvFreq _ _ => .command 0x60000000 0xF3FF0000
  | .setvPw _ _ => .command 0x60200000 0xF3FF0000
  | .setvAttack _ _ => .command 0x60400000 0xF3FF0000
  | .setvDecay _ _ => .command 0x60600000 0xF3FF0000
  | .setvSustain _ _ => .command 0x60800000 0xF3FF0000
  | .setvRelease _ _ => .command 0x60A00000 0xF3FF0000
  | .setvShape _ _ => .command 0x60C00000 0xF3FF0000
  | .setvCflags _ _ => .command 0x60E00000 0xF3FF0000
  | .setvCflagsAdd _ _ => .command 0x61000000 0xF3FF0000
  | .setvCflagsRemove _ _ => .command 0x61200000 0xF3FF0000
  | .setfCutoff _ => .command 0x70000000 0xFFFF0000
  | .setfRes _ => .command 0x70200000 0xFFFF0000
  | .setfVol _ => .command 0x70400000 0xFFFF0000
  | .setfMode _ => .command 0x70600000 0xFFFF0000
  | .setfModeAdd _ => .command 0x70800000 0xFFFF0000
  | .setfModeRemove _ => .command 0x70A00000 0xFFFF0000
  | .setfTargets _ => .command 0x70C00000 0xFFFF0000
  | .setfTargetsAdd _ => .command 0x70E00000 0xFFFF0000
  | .setfTargetsRemove _ => .command 0x71000000 0xFFFF0000
  | .frameLinearV0FreqLo _ => .frame 0x0000 0xFF00
  | .frameLinearV0FreqHi _ => .frame 0x0100 0xFF00
  | .frameLinearV0PwLo _ => .frame 0x0200 0xFF00
  | .frameLinearV0PwHi _ => .frame 0x0300 0xFF00
  | .frameLinearV0Control _ => .frame 0x0400 0xFF00
  | .frameLinearV0AttackDecay _ => .frame 0x0500 0xFF00
  | .frameLinearV0SustainRelease _ => .frame 0x0600 0xFF00
  | .frameLinearV1FreqLo _ => .frame 0x0700 0xFF00
  | .frameLinearV1FreqHi _ => .frame 0x0800 0xFF00
  | .frameLinearV1PwLo _ => .frame 0x0900 0xFF00
  | .frameLinearV1PwHi _ => .frame 0x0A00 0xFF00
  | .frameLinearV1Control _ => .frame 0x0B00 0xFF00
  | .frameLinearV1AttackDecay _ => .frame 0x0C00 0xFF00
  | .frameLinearV1SustainRelease _ => .frame 0x0D00 0xFF00
  | .frameLinearV2FreqLo _ => .frame 0x0E00 0xFF00
  | .frameLinearV2FreqHi _ => .frame 0x0F00 0xFF00
  | .frameLinearV2PwLo _ => .frame 0x1000 0xFF00
  | .frameLinearV2PwHi _ => .frame 0x1100 0xFF00
  | .frameLinearV2Control _ => .frame 0x1200 0xFF00
  | .frameLinearV2AttackDecay _ => .frame 0x1300 0xFF00
  | .frameLinearV2SustainRelease _ => .frame 0x1400 0xFF00
  | .frameLinearFcLo _ => .frame 0x1500 0xFF00
  | .frameLinearFcHi _ => .frame 0x1600 0xFF00
  | .frameLinearResRoute _ => .frame 0x1700 0xFF00
  | .frameLinearModeVol _ => .frame 0x1800 0xFF00
  | .frameShiftedV0FreqLo _ => .frame 0x0000 0xFF00
  | .frameShiftedV0FreqHi _ => .frame 0x0200 0xFF00
  | .frameShiftedV0PwLo _ => .frame 0x0400 0xFF00
  | .frameShiftedV0PwHi _ => .frame 0x0600 0xFF00
  | .frameShiftedV0Control _ => .frame 0x0800 0xFF00
  | .frameShiftedV0AttackDecay _ => .frame 0x0A00 0xFF00
  | .frameShiftedV0SustainRelease _ => .frame 0x0C00 0xFF00
  | .frameShiftedV1FreqLo _ => .frame 0x0E00 0xFF00
  | .frameShiftedV1FreqHi _ => .frame 0x1000 0xFF00
  | .frameShiftedV1PwLo _ => .frame 0x1200 0xFF00
  | .frameShiftedV1PwHi _ => .frame 0x1400 0xFF00
  | .frameShiftedV1Control _ => .frame 0x1600 0xFF00
  | .frameShiftedV1AttackDecay _ => .frame 0x1800 0xFF00
  | .frameShiftedV1SustainRelease _ => .frame 0x1A00 0xFF00
  | .frameShiftedV2FreqLo _ => .frame 0x1C00 0xFF00
  | .frameShiftedV2FreqHi _ => .frame 0x1E00 0xFF00
  | .frameShiftedV2PwLo _ => .frame 0x2000 0xFF00
  | .frameShiftedV2PwHi _ => .frame 0x2200 0xFF00
  | .frameShiftedV2Control _ => .frame 0x2400 0xFF00
  | .frameShiftedV2AttackDecay _ => .frame 0x2600 0xFF00
  | .frameShiftedV2SustainRelease _ => .frame 0x2800 0xFF00
  | .frameShiftedFcLo _ => .frame 0x2A00 0xFF00
  | .frameShiftedFcHi _ => .frame 0x2C00 0xFF00
  | .frameShiftedResRoute _ => .frame 0x2E00 0xFF00
  | .frameShiftedModeVol _ => .frame 0x3000 0xFF00
  | .frameShiftedReset _ _ => .frame 0x0100 0x0100

/-- A word has the fixed bits of a row. -/
def Row.fits : Row → Slot → Prop
  | .command p m, .command w => w &&& m = p
  | .frame p m, .frame w => w &&& m = p
  | _, _ => False

/-- The fixed bits of a voice field's word. -/
theorem setv_fixed (k : BitVec 5) (v : BitVec 2) (imm : U16) :
    commandWord 6 v k imm &&& 0xF3FF0000 = commandWord 6 0 k 0 := by
  apply BitVec.eq_of_getLsbD_eq
  intro i hi
  simp only [commandWord, BitVec.getLsbD_and, BitVec.getLsbD_append]
  interval_cases i <;> simp

/-- The fixed bits of a filter field's word. -/
theorem setf_fixed (k : BitVec 5) (imm : U16) : commandWord 7 0 k imm &&& 0xFFFF0000 = commandWord 7 0 k 0 := by
  apply BitVec.eq_of_getLsbD_eq
  intro i hi
  simp only [commandWord, BitVec.getLsbD_and, BitVec.getLsbD_append]
  interval_cases i <;> simp

/-- The fixed bits of a register frame. -/
theorem frame_fixed (a d : Byte) : (a ++ d : FrameWord) &&& 0xFF00 = a ++ (0 : Byte) := by
  apply BitVec.eq_of_getLsbD_eq
  intro i hi
  simp only [BitVec.getLsbD_and, BitVec.getLsbD_append]
  interval_cases i <;> simp

/-- Bit 8 of a frame is bit 0 of its address byte. -/
theorem frame_bit8 {a : Byte} (h : a.getLsbD 0 = true) (d : Byte) : (a ++ d : FrameWord) &&& 0x0100 = 0x0100 := by
  apply BitVec.eq_of_getLsbD_eq
  intro i hi
  simp only [BitVec.getLsbD_and, BitVec.getLsbD_append]
  interval_cases i <;> simp_all

/-- The encoded instruction has its row's fixed bits. -/
def MatchesRow.Statement (i : Instr) : Prop := (rowOf i).fits (encode i)

theorem MatchesRow.reset : MatchesRow.Statement .reset :=
  (by decide : commandWord 1 0 0 0 &&& 0xFFFFFFFF#32 = 0x10000000#32)

theorem MatchesRow.writeVoice (v : BitVec 2) : MatchesRow.Statement (.writeVoice v) :=
  by
  change commandWord 2 v 0 0 &&& 0xF3FFFFFF#32 = 0x20000000#32
  revert v
  decide

theorem MatchesRow.writeFilter : MatchesRow.Statement .writeFilter :=
  (by decide : commandWord 3 0 0 0 &&& 0xFFFFFFFF#32 = 0x30000000#32)

theorem MatchesRow.writeAllVoices : MatchesRow.Statement .writeAllVoices :=
  (by decide : commandWord 4 0 0 0 &&& 0xFFFFFFFF#32 = 0x40000000#32)

theorem MatchesRow.initializeChip : MatchesRow.Statement .initializeChip :=
  (by decide : commandWord 5 0 0 0 &&& 0xFFFFFFFF#32 = 0x50000000#32)

theorem MatchesRow.setvFreq (v : BitVec 2) (imm : U16) : MatchesRow.Statement (.setvFreq v imm) :=
  (setv_fixed _ v imm).trans (by decide)

theorem MatchesRow.setvPw (v : BitVec 2) (imm : U16) : MatchesRow.Statement (.setvPw v imm) :=
  (setv_fixed _ v imm).trans (by decide)

theorem MatchesRow.setvAttack (v : BitVec 2) (imm : U16) : MatchesRow.Statement (.setvAttack v imm) :=
  (setv_fixed _ v imm).trans (by decide)

theorem MatchesRow.setvDecay (v : BitVec 2) (imm : U16) : MatchesRow.Statement (.setvDecay v imm) :=
  (setv_fixed _ v imm).trans (by decide)

theorem MatchesRow.setvSustain (v : BitVec 2) (imm : U16) : MatchesRow.Statement (.setvSustain v imm) :=
  (setv_fixed _ v imm).trans (by decide)

theorem MatchesRow.setvRelease (v : BitVec 2) (imm : U16) : MatchesRow.Statement (.setvRelease v imm) :=
  (setv_fixed _ v imm).trans (by decide)

theorem MatchesRow.setvShape (v : BitVec 2) (imm : U16) : MatchesRow.Statement (.setvShape v imm) :=
  (setv_fixed _ v imm).trans (by decide)

theorem MatchesRow.setvCflags (v : BitVec 2) (imm : U16) : MatchesRow.Statement (.setvCflags v imm) :=
  (setv_fixed _ v imm).trans (by decide)

theorem MatchesRow.setvCflagsAdd (v : BitVec 2) (imm : U16) : MatchesRow.Statement (.setvCflagsAdd v imm) :=
  (setv_fixed _ v imm).trans (by decide)

theorem MatchesRow.setvCflagsRemove (v : BitVec 2) (imm : U16) : MatchesRow.Statement (.setvCflagsRemove v imm) :=
  (setv_fixed _ v imm).trans (by decide)

theorem MatchesRow.setfCutoff (imm : U16) : MatchesRow.Statement (.setfCutoff imm) :=
  (setf_fixed _ imm).trans (by decide)

theorem MatchesRow.setfRes (imm : U16) : MatchesRow.Statement (.setfRes imm) :=
  (setf_fixed _ imm).trans (by decide)

theorem MatchesRow.setfVol (imm : U16) : MatchesRow.Statement (.setfVol imm) :=
  (setf_fixed _ imm).trans (by decide)

theorem MatchesRow.setfMode (imm : U16) : MatchesRow.Statement (.setfMode imm) :=
  (setf_fixed _ imm).trans (by decide)

theorem MatchesRow.setfModeAdd (imm : U16) : MatchesRow.Statement (.setfModeAdd imm) :=
  (setf_fixed _ imm).trans (by decide)

theorem MatchesRow.setfModeRemove (imm : U16) : MatchesRow.Statement (.setfModeRemove imm) :=
  (setf_fixed _ imm).trans (by decide)

theorem MatchesRow.setfTargets (imm : U16) : MatchesRow.Statement (.setfTargets imm) :=
  (setf_fixed _ imm).trans (by decide)

theorem MatchesRow.setfTargetsAdd (imm : U16) : MatchesRow.Statement (.setfTargetsAdd imm) :=
  (setf_fixed _ imm).trans (by decide)

theorem MatchesRow.setfTargetsRemove (imm : U16) : MatchesRow.Statement (.setfTargetsRemove imm) :=
  (setf_fixed _ imm).trans (by decide)

theorem MatchesRow.frameLinearV0FreqLo (d : Byte) : MatchesRow.Statement (.frameLinearV0FreqLo d) :=
  (frame_fixed _ d).trans (by decide)

theorem MatchesRow.frameLinearV0FreqHi (d : Byte) : MatchesRow.Statement (.frameLinearV0FreqHi d) :=
  (frame_fixed _ d).trans (by decide)

theorem MatchesRow.frameLinearV0PwLo (d : Byte) : MatchesRow.Statement (.frameLinearV0PwLo d) :=
  (frame_fixed _ d).trans (by decide)

theorem MatchesRow.frameLinearV0PwHi (d : Byte) : MatchesRow.Statement (.frameLinearV0PwHi d) :=
  (frame_fixed _ d).trans (by decide)

theorem MatchesRow.frameLinearV0Control (d : Byte) : MatchesRow.Statement (.frameLinearV0Control d) :=
  (frame_fixed _ d).trans (by decide)

theorem MatchesRow.frameLinearV0AttackDecay (d : Byte) : MatchesRow.Statement (.frameLinearV0AttackDecay d) :=
  (frame_fixed _ d).trans (by decide)

theorem MatchesRow.frameLinearV0SustainRelease (d : Byte) : MatchesRow.Statement (.frameLinearV0SustainRelease d) :=
  (frame_fixed _ d).trans (by decide)

theorem MatchesRow.frameLinearV1FreqLo (d : Byte) : MatchesRow.Statement (.frameLinearV1FreqLo d) :=
  (frame_fixed _ d).trans (by decide)

theorem MatchesRow.frameLinearV1FreqHi (d : Byte) : MatchesRow.Statement (.frameLinearV1FreqHi d) :=
  (frame_fixed _ d).trans (by decide)

theorem MatchesRow.frameLinearV1PwLo (d : Byte) : MatchesRow.Statement (.frameLinearV1PwLo d) :=
  (frame_fixed _ d).trans (by decide)

theorem MatchesRow.frameLinearV1PwHi (d : Byte) : MatchesRow.Statement (.frameLinearV1PwHi d) :=
  (frame_fixed _ d).trans (by decide)

theorem MatchesRow.frameLinearV1Control (d : Byte) : MatchesRow.Statement (.frameLinearV1Control d) :=
  (frame_fixed _ d).trans (by decide)

theorem MatchesRow.frameLinearV1AttackDecay (d : Byte) : MatchesRow.Statement (.frameLinearV1AttackDecay d) :=
  (frame_fixed _ d).trans (by decide)

theorem MatchesRow.frameLinearV1SustainRelease (d : Byte) : MatchesRow.Statement (.frameLinearV1SustainRelease d) :=
  (frame_fixed _ d).trans (by decide)

theorem MatchesRow.frameLinearV2FreqLo (d : Byte) : MatchesRow.Statement (.frameLinearV2FreqLo d) :=
  (frame_fixed _ d).trans (by decide)

theorem MatchesRow.frameLinearV2FreqHi (d : Byte) : MatchesRow.Statement (.frameLinearV2FreqHi d) :=
  (frame_fixed _ d).trans (by decide)

theorem MatchesRow.frameLinearV2PwLo (d : Byte) : MatchesRow.Statement (.frameLinearV2PwLo d) :=
  (frame_fixed _ d).trans (by decide)

theorem MatchesRow.frameLinearV2PwHi (d : Byte) : MatchesRow.Statement (.frameLinearV2PwHi d) :=
  (frame_fixed _ d).trans (by decide)

theorem MatchesRow.frameLinearV2Control (d : Byte) : MatchesRow.Statement (.frameLinearV2Control d) :=
  (frame_fixed _ d).trans (by decide)

theorem MatchesRow.frameLinearV2AttackDecay (d : Byte) : MatchesRow.Statement (.frameLinearV2AttackDecay d) :=
  (frame_fixed _ d).trans (by decide)

theorem MatchesRow.frameLinearV2SustainRelease (d : Byte) : MatchesRow.Statement (.frameLinearV2SustainRelease d) :=
  (frame_fixed _ d).trans (by decide)

theorem MatchesRow.frameLinearFcLo (d : Byte) : MatchesRow.Statement (.frameLinearFcLo d) :=
  (frame_fixed _ d).trans (by decide)

theorem MatchesRow.frameLinearFcHi (d : Byte) : MatchesRow.Statement (.frameLinearFcHi d) :=
  (frame_fixed _ d).trans (by decide)

theorem MatchesRow.frameLinearResRoute (d : Byte) : MatchesRow.Statement (.frameLinearResRoute d) :=
  (frame_fixed _ d).trans (by decide)

theorem MatchesRow.frameLinearModeVol (d : Byte) : MatchesRow.Statement (.frameLinearModeVol d) :=
  (frame_fixed _ d).trans (by decide)

theorem MatchesRow.frameShiftedV0FreqLo (d : Byte) : MatchesRow.Statement (.frameShiftedV0FreqLo d) :=
  (frame_fixed _ d).trans (by decide)

theorem MatchesRow.frameShiftedV0FreqHi (d : Byte) : MatchesRow.Statement (.frameShiftedV0FreqHi d) :=
  (frame_fixed _ d).trans (by decide)

theorem MatchesRow.frameShiftedV0PwLo (d : Byte) : MatchesRow.Statement (.frameShiftedV0PwLo d) :=
  (frame_fixed _ d).trans (by decide)

theorem MatchesRow.frameShiftedV0PwHi (d : Byte) : MatchesRow.Statement (.frameShiftedV0PwHi d) :=
  (frame_fixed _ d).trans (by decide)

theorem MatchesRow.frameShiftedV0Control (d : Byte) : MatchesRow.Statement (.frameShiftedV0Control d) :=
  (frame_fixed _ d).trans (by decide)

theorem MatchesRow.frameShiftedV0AttackDecay (d : Byte) : MatchesRow.Statement (.frameShiftedV0AttackDecay d) :=
  (frame_fixed _ d).trans (by decide)

theorem MatchesRow.frameShiftedV0SustainRelease (d : Byte) : MatchesRow.Statement (.frameShiftedV0SustainRelease d) :=
  (frame_fixed _ d).trans (by decide)

theorem MatchesRow.frameShiftedV1FreqLo (d : Byte) : MatchesRow.Statement (.frameShiftedV1FreqLo d) :=
  (frame_fixed _ d).trans (by decide)

theorem MatchesRow.frameShiftedV1FreqHi (d : Byte) : MatchesRow.Statement (.frameShiftedV1FreqHi d) :=
  (frame_fixed _ d).trans (by decide)

theorem MatchesRow.frameShiftedV1PwLo (d : Byte) : MatchesRow.Statement (.frameShiftedV1PwLo d) :=
  (frame_fixed _ d).trans (by decide)

theorem MatchesRow.frameShiftedV1PwHi (d : Byte) : MatchesRow.Statement (.frameShiftedV1PwHi d) :=
  (frame_fixed _ d).trans (by decide)

theorem MatchesRow.frameShiftedV1Control (d : Byte) : MatchesRow.Statement (.frameShiftedV1Control d) :=
  (frame_fixed _ d).trans (by decide)

theorem MatchesRow.frameShiftedV1AttackDecay (d : Byte) : MatchesRow.Statement (.frameShiftedV1AttackDecay d) :=
  (frame_fixed _ d).trans (by decide)

theorem MatchesRow.frameShiftedV1SustainRelease (d : Byte) : MatchesRow.Statement (.frameShiftedV1SustainRelease d) :=
  (frame_fixed _ d).trans (by decide)

theorem MatchesRow.frameShiftedV2FreqLo (d : Byte) : MatchesRow.Statement (.frameShiftedV2FreqLo d) :=
  (frame_fixed _ d).trans (by decide)

theorem MatchesRow.frameShiftedV2FreqHi (d : Byte) : MatchesRow.Statement (.frameShiftedV2FreqHi d) :=
  (frame_fixed _ d).trans (by decide)

theorem MatchesRow.frameShiftedV2PwLo (d : Byte) : MatchesRow.Statement (.frameShiftedV2PwLo d) :=
  (frame_fixed _ d).trans (by decide)

theorem MatchesRow.frameShiftedV2PwHi (d : Byte) : MatchesRow.Statement (.frameShiftedV2PwHi d) :=
  (frame_fixed _ d).trans (by decide)

theorem MatchesRow.frameShiftedV2Control (d : Byte) : MatchesRow.Statement (.frameShiftedV2Control d) :=
  (frame_fixed _ d).trans (by decide)

theorem MatchesRow.frameShiftedV2AttackDecay (d : Byte) : MatchesRow.Statement (.frameShiftedV2AttackDecay d) :=
  (frame_fixed _ d).trans (by decide)

theorem MatchesRow.frameShiftedV2SustainRelease (d : Byte) : MatchesRow.Statement (.frameShiftedV2SustainRelease d) :=
  (frame_fixed _ d).trans (by decide)

theorem MatchesRow.frameShiftedFcLo (d : Byte) : MatchesRow.Statement (.frameShiftedFcLo d) :=
  (frame_fixed _ d).trans (by decide)

theorem MatchesRow.frameShiftedFcHi (d : Byte) : MatchesRow.Statement (.frameShiftedFcHi d) :=
  (frame_fixed _ d).trans (by decide)

theorem MatchesRow.frameShiftedResRoute (d : Byte) : MatchesRow.Statement (.frameShiftedResRoute d) :=
  (frame_fixed _ d).trans (by decide)

theorem MatchesRow.frameShiftedModeVol (d : Byte) : MatchesRow.Statement (.frameShiftedModeVol d) :=
  (frame_fixed _ d).trans (by decide)

theorem MatchesRow.frameShiftedReset (index : BitVec 7) (d : Byte) : MatchesRow.Statement (.frameShiftedReset index d) :=
  frame_bit8 (by simp [Machine.resetAddr]) d

end Sys2Proof.Laws
end

