-- ==== Sys2Proof/Machine/Assembler.lean ====
section
/-! DEFINITION. The spec's assembler (spec/30_encoding.md R93) and its pseudo-instructions (R95). It is notation, not
hardware: no step uses it. One command a line, `;` starts a comment; a line without a command assembles to nothing. -/

namespace Sys2Proof.Machine

/-! ### Pseudo-instructions (R95), each one command -/

def gateOn (v : BitVec 2) : Instr := .setvCflagsAdd v (zext 16 flagGate)
def gateOff (v : BitVec 2) : Instr := .setvCflagsRemove v (zext 16 flagGate)
def syncOn (v : BitVec 2) : Instr := .setvCflagsAdd v (zext 16 flagSync)
def syncOff (v : BitVec 2) : Instr := .setvCflagsRemove v (zext 16 flagSync)
def ringOn (v : BitVec 2) : Instr := .setvCflagsAdd v (zext 16 flagRing)
def ringOff (v : BitVec 2) : Instr := .setvCflagsRemove v (zext 16 flagRing)
def testOn (v : BitVec 2) : Instr := .setvCflagsAdd v (zext 16 flagTest)
def testOff (v : BitVec 2) : Instr := .setvCflagsRemove v (zext 16 flagTest)
def routeOn (t : U16) : Instr := .setfTargetsAdd t
def routeOff (t : U16) : Instr := .setfTargetsRemove t

/-! ### Characters -/

/-- Split a text at every `c`. -/
def splitAtChar (c : Char) : List Char → List (List Char)
  | [] => [[]]
  | x :: xs =>
    if x = c then [] :: splitAtChar c xs
    else match splitAtChar c xs with
      | [] => [[x]]
      | w :: ws => (x :: w) :: ws

/-- Blank characters of a line. -/
def isBlank (c : Char) : Bool := c == ' ' || c == '\t'

/-- A text without the blanks at its two ends. -/
def trimBlanks (cs : List Char) : List Char := ((cs.dropWhile isBlank).reverse.dropWhile isBlank).reverse

/-- The value of a digit in base `b`, if it is one. -/
def digitIn (b : Nat) (c : Char) : Option Nat :=
  let n := c.toNat
  let d := if 48 ≤ n ∧ n ≤ 57 then n - 48 else if 65 ≤ n ∧ n ≤ 70 then n - 55 else if 97 ≤ n ∧ n ≤ 102 then n - 87 else b
  if d < b then some d else none

/-- The value of a list of digits in base `b`, after the value `acc`. -/
def digitsIn (b : Nat) : Nat → List Char → Option Nat
  | acc, [] => some acc
  | acc, c :: cs => (digitIn b c).bind fun d => digitsIn b (acc * b + d) cs

/-- "Immediates are decimal or `0x` hexadecimal" (R93). -/
def number : List Char → Option Nat
  | [] => none
  | ['0', 'x'] => none
  | '0' :: 'x' :: cs => digitsIn 16 0 cs
  | cs => digitsIn 10 0 cs

/-! ### Operands -/

/-- A name and its value. -/
abbrev NameTable := List (String × U4)

/-- The names of the shapes (R93, R105). -/
def shapeNames : NameTable := [("TRIANGLE", 0), ("SAWTOOTH", 1), ("SQUARE", 2), ("NOISE", 3)]

/-- The names of the control flags (R93, R103). -/
def cflagNames : NameTable := [("GATE", flagGate), ("SYNC", flagSync), ("RING", flagRing), ("TEST", flagTest)]

/-- The names of the filter modes (R93, R103). -/
def modeNames : NameTable := [("LP", modeLp), ("BP", modeBp), ("HP", modeHp), ("OFF3", modeOff3)]

/-- The names of the routing targets (R93, R103). -/
def targetNames : NameTable := [("V1", targetV1), ("V2", targetV2), ("V3", targetV3), ("EXT", targetExt)]

/-- How an immediate is written (R93). -/
inductive ImmForm where
  | plain                     -- a number
  | oneOf (t : NameTable)     -- a number or one name
  | setOf (t : NameTable)     -- a number or names separated by `|`

/-- The value of a name. -/
def nameValue (t : NameTable) (cs : List Char) : Option U4 :=
  (t.find? fun p => p.1.toList == trimBlanks cs).map Prod.snd

/-- The OR of a list of named flags (R93). -/
def namedSet (t : NameTable) : List (List Char) → Option U4
  | [] => some 0
  | w :: ws => (nameValue t w).bind fun x => (namedSet t ws).map fun y => flagAdd x y

/-- A number that fits the 16 bits of `IMM` (R80). -/
def numberImm (cs : List Char) : Option U16 :=
  (number (trimBlanks cs)).bind fun n => if n < 65536 then some (BitVec.ofNat 16 n) else none

/-- An immediate operand (R93). -/
def immediate (f : ImmForm) (cs : List Char) : Option U16 :=
  match numberImm cs, f with
  | some n, _ => some n
  | none, .plain => none
  | none, .oneOf t => (nameValue t cs).map (zext 16)
  | none, .setOf t => (namedSet t (splitAtChar '|' cs)).map (zext 16)

/-- A voice operand: a decimal that fits `VSEL` (R80, R93). -/
def voiceOperand (cs : List Char) : Option (BitVec 2) :=
  (digitsIn 10 0 (trimBlanks cs)).bind fun n =>
    if trimBlanks cs ≠ [] ∧ n < 4 then some (BitVec.ofNat 2 n) else none

/-! ### Lines -/

/-- The shape of a command's operands. -/
inductive AsmForm where
  | none (i : Instr)
  | voice (f : BitVec 2 → Instr)
  | imm (k : ImmForm) (f : U16 → Instr)
  | voiceImm (k : ImmForm) (f : BitVec 2 → U16 → Instr)

/-- The mnemonics of the write commands and `RESET` (R81, R93). -/
def transportForms : List (String × AsmForm) :=
  [("RESET", .none .reset), ("WRITE_VOICE", .voice .writeVoice), ("WRITE_FILTER", .none .writeFilter),
   ("WRITE_ALL_VOICES", .none .writeAllVoices), ("INITIALIZE", .none .initializeChip)]

/-- The mnemonics of the voice fields (R82, R93). -/
def voiceForms : List (String × AsmForm) :=
  [("SETV.FREQ", .voiceImm .plain .setvFreq), ("SETV.PW", .voiceImm .plain .setvPw),
   ("SETV.ATTACK", .voiceImm .plain .setvAttack), ("SETV.DECAY", .voiceImm .plain .setvDecay),
   ("SETV.SUSTAIN", .voiceImm .plain .setvSustain), ("SETV.RELEASE", .voiceImm .plain .setvRelease),
   ("SETV.SHAPE", .voiceImm (.oneOf shapeNames) .setvShape), ("SETV.CFLAGS", .voiceImm (.setOf cflagNames) .setvCflags),
   ("SETV.CFLAGS_ADD", .voiceImm (.setOf cflagNames) .setvCflagsAdd),
   ("SETV.CFLAGS_REMOVE", .voiceImm (.setOf cflagNames) .setvCflagsRemove)]

/-- The mnemonics of the filter fields (R83, R93). -/
def filterForms : List (String × AsmForm) :=
  [("SETF.CUTOFF", .imm .plain .setfCutoff), ("SETF.RES", .imm .plain .setfRes), ("SETF.VOL", .imm .plain .setfVol),
   ("SETF.MODE", .imm (.setOf modeNames) .setfMode), ("SETF.MODE_ADD", .imm (.setOf modeNames) .setfModeAdd),
   ("SETF.MODE_REMOVE", .imm (.setOf modeNames) .setfModeRemove),
   ("SETF.TARGETS", .imm (.setOf targetNames) .setfTargets),
   ("SETF.TARGETS_ADD", .imm (.setOf targetNames) .setfTargetsAdd),
   ("SETF.TARGETS_REMOVE", .imm (.setOf targetNames) .setfTargetsRemove)]

/-- The pseudo-instructions (R95). -/
def pseudoForms : List (String × AsmForm) :=
  [("GATE_ON", .voice gateOn), ("GATE_OFF", .voice gateOff), ("SYNC_ON", .voice syncOn), ("SYNC_OFF", .voice syncOff),
   ("RING_ON", .voice ringOn), ("RING_OFF", .voice ringOff), ("TEST_ON", .voice testOn), ("TEST_OFF", .voice testOff),
   ("ROUTE_ON", .imm (.setOf targetNames) routeOn), ("ROUTE_OFF", .imm (.setOf targetNames) routeOff)]

/-- Every mnemonic of the assembler. -/
def asmForms : List (String × AsmForm) := transportForms ++ voiceForms ++ filterForms ++ pseudoForms

/-- A command from its form and its comma-separated operands. -/
def assembleOperands (form : AsmForm) (args : List (List Char)) : Option Instr :=
  match form, args with
  | .none i, [] => some i
  | .voice f, [a] => (voiceOperand a).map f
  | .imm k f, [a] => (immediate k a).map f
  | .voiceImm k f, [a, b] => (voiceOperand a).bind fun v => (immediate k b).map fun x => f v x
  | _, _ => none

/-- What one line of assembler text is. -/
inductive AsmLine where
  | blank
  | command (i : Instr)
  | notACommand
  deriving DecidableEq, Repr

/-- Assemble one line (R93): the mnemonic, then operands separated by commas. -/
def assembleLine (text : String) : AsmLine :=
  match trimBlanks (text.toList.takeWhile (· != ';')) with
  | [] => .blank
  | code =>
    let word := code.takeWhile fun c => !isBlank c
    let rest := trimBlanks (code.dropWhile fun c => !isBlank c)
    let args := if rest = [] then [] else splitAtChar ',' rest
    match (asmForms.find? fun p => p.1.toList == word).bind fun p => assembleOperands p.2 args with
    | some i => .command i
    | none => .notACommand

/-- Assemble a program: one entry of `P` for every line that holds a command, none if a line is not one (R26, R93). The
assembler writes commands only. -/
def assemble : List String → Option (List CommandWord)
  | [] => some []
  | l :: ls =>
    match assembleLine l with
    | .blank => assemble ls
    | .command i =>
      match encode i with
      | .command w => (assemble ls).map fun p => w :: p
      | .frame _ => none
    | .notACommand => none

end Sys2Proof.Machine
end

