-- ==== Sys2Proof/Tests/Slice0.lean ====
section
/-! SUPPORT. The author's own tests. Every expected value comes from the spec: the vectors of spec/95_test_vectors.md (named
in each comment), the encoding tables of spec/30_encoding.md, or the examples inside a rule. The last part shows, for
every statement with hypotheses, a concrete case that meets them together. -/

namespace Sys2Proof.Tests

open Sys2Proof.Machine

/-! ### Helpers -/

/-- The next state, if there is one. -/
def nextOf : Host.Outcome State Fault Refusal → Option State
  | .next t => some t
  | .fault _ => none
  | .refused _ => none

/-- The state after `NEW` under `LINEAR`, every parameter at its default. -/
def fresh : State := State.resetWith { conv := .linear }

/-- The state after `NEW` under `SHIFTED`, every parameter at its default. -/
def freshShifted : State := State.resetWith { conv := .shifted }

/-- The configuration of T40. -/
def oddConfig : Config :=
  { conv := .shifted, tResetShifted := 20, resetFrameIndex := 24, resetFrameData := 0xFF, tSettle := 5 }

/-- `s` about to run the word `c`. -/
def about (c : CommandWord) (s : State) : State := s.setProgram [c]

/-- `s` inside a write command, chip-select low, about to send the frame `f`. -/
def aboutFrame (f : FrameWord) (s : State) : State := ((s.setPhase .transmitting).setCs .low).setDue (some f)

/-- `s` inside `RESET`, chip-select low, about to send the frame `f`. -/
def aboutReset (f : FrameWord) (s : State) : State := ((s.setPhase .resetting).setCs .low).setDue (some f)

/-- The state after one step on the command word `c`. -/
def after (c : CommandWord) (s : State) : Option State := nextOf (step (about c s))

/-- The state after one step on the frame `f`. -/
def afterFrame (f : FrameWord) (s : State) : Option State := nextOf (step (aboutFrame f s))

/-- The 25 entries of the chip image. -/
def image (s : State) : List (Option Byte) := (List.range 25).map fun k => Memory.read k s.chip

/-- `fresh` with the control flags of voice 0 set to `f`. -/
def withFlags (f : U4) : State :=
  fresh.setChipState { ChipState.reset with v0 := { Voice.reset with ctrl := { shape := .square, flags := f } } }

/-- `fresh` with the filter's mode set to `m` and its targets to `t`. -/
def withSets (m t : U4) : State :=
  fresh.setChipState { ChipState.reset with filter := { Filter.reset with mode := m, targets := t } }

/-! ### Well-formedness: one ill-formed instruction for each check -/

theorem test_wf_refuses_voice_3 : Instr.wellFormed (.writeVoice 3) = false := by decide
theorem test_wf_refuses_pw_4096 : Instr.wellFormed (.setvPw 1 4096) = false := by decide
theorem test_wf_refuses_attack_16 : Instr.wellFormed (.setvAttack 2 16) = false := by decide
theorem test_wf_refuses_shape_4 : Instr.wellFormed (.setvShape 0 4) = false := by decide
theorem test_wf_refuses_cutoff_2048 : Instr.wellFormed (.setfCutoff 2048) = false := by decide
theorem test_wf_refuses_pw_hi_nibble : Instr.wellFormed (.frameLinearV0PwHi 0x18) = false := by decide
theorem test_wf_refuses_two_shapes : Instr.wellFormed (.frameShiftedV1Control 0x30) = false := by decide
theorem test_wf_refuses_no_shape : Instr.wellFormed (.frameLinearV2Control 0x0F) = false := by decide
theorem test_wf_refuses_fc_lo_high_bits : Instr.wellFormed (.frameLinearFcLo 0x08) = false := by decide
theorem test_wf_accepts_the_edges :
    [Instr.setvPw 1 4095, .setvAttack 2 15, .setvShape 0 3, .setfCutoff 2047, .setvFreq 2 0xFFFF, .frameLinearV0PwHi 0x0F,
      .frameLinearV0Control 0x8F, .frameShiftedFcLo 0x07].all Instr.wellFormed = true := by decide
theorem test_config_constraints :
    [({ conv := .linear } : Config), { conv := .linear, tResetLine := 9 }, { conv := .shifted, tResetShifted := 11 },
      { conv := .shifted, resetFrameIndex := 128 }, { conv := .linear, hasResetLine := false }, oddConfig].map Config.wf =
      [true, false, false, false, false, true] := by decide

/-! ### Decoding: a word written out from the encoding tables for every row (R76 to R85) -/

theorem test_decode_transport :
    [0x10000000, 0x20000000, 0x24000000, 0x28000000, 0x2C000000, 0x30000000, 0x40000000, 0x50000000].map decodeCommand =
      [.ok .reset, .ok (.writeVoice 0), .ok (.writeVoice 1), .ok (.writeVoice 2), .ok (.writeVoice 3), .ok .writeFilter,
        .ok .writeAllVoices, .ok .initializeChip] := by decide

/-- Words of V2, V6, V10, V12, V15, V17, V22, V24, V27, V33. -/
theorem test_decode_setv :
    [0x60001D45, 0x64200FFF, 0x6840000F, 0x6060000F, 0x6480000F, 0x68A00004, 0x60C00003, 0x64E00005, 0x61000001,
      0x61200002].map decodeCommand =
      [.ok (.setvFreq 0 0x1D45), .ok (.setvPw 1 4095), .ok (.setvAttack 2 15), .ok (.setvDecay 0 15),
        .ok (.setvSustain 1 15), .ok (.setvRelease 2 4), .ok (.setvShape 0 3), .ok (.setvCflags 1 5),
        .ok (.setvCflagsAdd 0 1), .ok (.setvCflagsRemove 0 2)] := by decide

/-- Words of V39, V42, V45, V47, V52, V54, V57, V60, V62. -/
theorem test_decode_setf :
    [0x700004A5, 0x7020000F, 0x7040000F, 0x70600005, 0x70800002, 0x70A00004, 0x70C00009, 0x70E00006,
      0x71000008].map decodeCommand =
      [.ok (.setfCutoff 0x4A5), .ok (.setfRes 15), .ok (.setfVol 15), .ok (.setfMode 5), .ok (.setfModeAdd 2),
        .ok (.setfModeRemove 4), .ok (.setfTargets 9), .ok (.setfTargetsAdd 6), .ok (.setfTargetsRemove 8)] := by decide

/-- X1 to X20. -/
theorem test_decode_illegal :
    [0x00000000, 0x80000000, 0xF0000000, 0xFFFFFFFF, 0x10010000, 0x601F0000, 0x10000001, 0x14000000, 0x30200000, 0x4C000000,
      0x50000007, 0x20000001, 0x24200000, 0x2C200000, 0x61400000, 0x63E00000, 0x6D400000, 0x71200000, 0x74000000,
      0x74000800].all (fun c => (decodeCommand c).toOption == none) = true := by decide

theorem test_decode_linear_voice_0 :
    [0x00A5, 0x013C, 0x025A, 0x030C, 0x0481, 0x0596, 0x0669].map (decodeFrame .linear) =
      [.ok (.frameLinearV0FreqLo 0xA5), .ok (.frameLinearV0FreqHi 0x3C), .ok (.frameLinearV0PwLo 0x5A),
        .ok (.frameLinearV0PwHi 0x0C), .ok (.frameLinearV0Control 0x81), .ok (.frameLinearV0AttackDecay 0x96),
        .ok (.frameLinearV0SustainRelease 0x69)] := by
  decide

theorem test_decode_linear_voice_1 :
    [0x07A5, 0x083C, 0x095A, 0x0A0C, 0x0B81, 0x0C96, 0x0D69].map (decodeFrame .linear) =
      [.ok (.frameLinearV1FreqLo 0xA5), .ok (.frameLinearV1FreqHi 0x3C), .ok (.frameLinearV1PwLo 0x5A),
        .ok (.frameLinearV1PwHi 0x0C), .ok (.frameLinearV1Control 0x81), .ok (.frameLinearV1AttackDecay 0x96),
        .ok (.frameLinearV1SustainRelease 0x69)] := by
  decide

theorem test_decode_linear_voice_2 :
    [0x0EA5, 0x0F3C, 0x105A, 0x110C, 0x1281, 0x1396, 0x1469].map (decodeFrame .linear) =
      [.ok (.frameLinearV2FreqLo 0xA5), .ok (.frameLinearV2FreqHi 0x3C), .ok (.frameLinearV2PwLo 0x5A),
        .ok (.frameLinearV2PwHi 0x0C), .ok (.frameLinearV2Control 0x81), .ok (.frameLinearV2AttackDecay 0x96),
        .ok (.frameLinearV2SustainRelease 0x69)] := by
  decide

theorem test_decode_linear_filter :
    [0x15A5, 0x163C, 0x175A, 0x180C].map (decodeFrame .linear) =
      [.ok (.frameLinearFcLo 0xA5), .ok (.frameLinearFcHi 0x3C), .ok (.frameLinearResRoute 0x5A),
        .ok (.frameLinearModeVol 0x0C)] := by
  decide

theorem test_decode_shifted_voice_0 :
    [0x00A5, 0x023C, 0x045A, 0x060C, 0x0881, 0x0A96, 0x0C69].map (decodeFrame .shifted) =
      [.ok (.frameShiftedV0FreqLo 0xA5), .ok (.frameShiftedV0FreqHi 0x3C), .ok (.frameShiftedV0PwLo 0x5A),
        .ok (.frameShiftedV0PwHi 0x0C), .ok (.frameShiftedV0Control 0x81),
        .ok (.frameShiftedV0AttackDecay 0x96), .ok (.frameShiftedV0SustainRelease 0x69)] := by
  decide

theorem test_decode_shifted_voice_1 :
    [0x0EA5, 0x103C, 0x125A, 0x140C, 0x1681, 0x1896, 0x1A69].map (decodeFrame .shifted) =
      [.ok (.frameShiftedV1FreqLo 0xA5), .ok (.frameShiftedV1FreqHi 0x3C), .ok (.frameShiftedV1PwLo 0x5A),
        .ok (.frameShiftedV1PwHi 0x0C), .ok (.frameShiftedV1Control 0x81),
        .ok (.frameShiftedV1AttackDecay 0x96), .ok (.frameShiftedV1SustainRelease 0x69)] := by
  decide

theorem test_decode_shifted_voice_2 :
    [0x1CA5, 0x1E3C, 0x205A, 0x220C, 0x2481, 0x2696, 0x2869].map (decodeFrame .shifted) =
      [.ok (.frameShiftedV2FreqLo 0xA5), .ok (.frameShiftedV2FreqHi 0x3C), .ok (.frameShiftedV2PwLo 0x5A),
        .ok (.frameShiftedV2PwHi 0x0C), .ok (.frameShiftedV2Control 0x81),
        .ok (.frameShiftedV2AttackDecay 0x96), .ok (.frameShiftedV2SustainRelease 0x69)] := by
  decide

theorem test_decode_shifted_filter :
    [0x2AA5, 0x2C3C, 0x2E5A, 0x300C].map (decodeFrame .shifted) =
      [.ok (.frameShiftedFcLo 0xA5), .ok (.frameShiftedFcHi 0x3C), .ok (.frameShiftedResRoute 0x5A),
        .ok (.frameShiftedModeVol 0x0C)] := by
  decide

theorem test_decode_reset_frames :
    [0x0100, 0x31FF, 0xFFA5].map (decodeFrame .shifted) =
      [.ok (.frameShiftedReset 0 0x00), .ok (.frameShiftedReset 24 0xFF), .ok (.frameShiftedReset 127 0xA5)] := by decide

/-- A22, and the first address byte past the registers under each convention (R90 (d)). -/
theorem test_decode_never_sent :
    [decodeFrame .linear 0x2A00, decodeFrame .linear 0x1900, decodeFrame .shifted 0x3200] =
      [.error .addressNeverSent, .error .addressNeverSent, .error .addressNeverSent] := by decide

theorem test_decode_table_word :
    [decodeTableWord 32 0x6C201000, decodeTableWord 16 0x1507, decodeTableWord 16 0x2A07, decodeTableWord 32 0x74000000] =
      [some (.setvPw 3 0x1000), some (.frameLinearFcLo 0x07), some (.frameShiftedFcLo 0x07), none] := by decide

/-! ### State updates (spec/95_test_vectors.md part 3), each one step on a word -/

/-- V2. -/
theorem test_setv_freq :
    ((after 0x60001D45 fresh).map fun t => (t.chipState.v0.freq, t.results)) = some (7493, [.ok]) := by decide

/-- V36. -/
theorem test_setv_freq_voice_3 :
    ((after 0x6C000064 fresh).map fun t => (t.chipState.v2.freq, t.results)) = some (7217, [.err (.rangeError .voiceIndex 3)]) := by decide

/-- V6. -/
theorem test_setv_pw_max :
    ((after 0x64200FFF fresh).map fun t => (t.chipState.v1.pw, t.results)) = some (4095, [.ok]) := by decide

/-- V7. -/
theorem test_setv_pw_too_large :
    ((after 0x64201000 fresh).map fun t => (t.chipState.v1.pw, t.results)) = some (2048, [.err (.rangeError .pw 4096)]) := by decide

/-- V10. -/
theorem test_setv_attack :
    ((after 0x6840000F fresh).map fun t => (t.chipState.v2.env, t.results)) = some (⟨15, 0, 7, 0⟩, [.ok]) := by decide

/-- V11. -/
theorem test_setv_attack_too_large :
    ((after 0x68400010 fresh).map fun t => (t.chipState.v2.env, t.results)) = some (⟨0, 0, 7, 0⟩, [.err (.rangeError .attack 16)]) := by decide

/-- V12. -/
theorem test_setv_decay :
    ((after 0x6060000F fresh).map fun t => (t.chipState.v0.env, t.results)) = some (⟨0, 15, 7, 0⟩, [.ok]) := by decide

/-- V13. -/
theorem test_setv_decay_too_large :
    ((after 0x60600010 fresh).map fun t => (t.chipState.v0.env, t.results)) = some (⟨0, 0, 7, 0⟩, [.err (.rangeError .decay 16)]) := by decide

/-- V14. -/
theorem test_setv_sustain :
    ((after 0x64800000 fresh).map fun t => (t.chipState.v1.env, t.results)) = some (⟨0, 0, 0, 0⟩, [.ok]) := by decide

/-- V16. -/
theorem test_setv_sustain_too_large :
    ((after 0x64800010 fresh).map fun t => (t.chipState.v1.env, t.results)) = some (⟨0, 0, 7, 0⟩, [.err (.rangeError .sustain 16)]) := by decide

/-- V17. -/
theorem test_setv_release :
    ((after 0x68A00004 fresh).map fun t => (t.chipState.v2.env, t.results)) = some (⟨0, 0, 7, 4⟩, [.ok]) := by decide

/-- V18. -/
theorem test_setv_release_too_large :
    ((after 0x68A00100 fresh).map fun t => (t.chipState.v2.env, t.results)) = some (⟨0, 0, 7, 0⟩, [.err (.rangeError .release 256)]) := by decide

/-- V22, from flags 5 (R116: the flags are untouched). -/
theorem test_setv_shape :
    ((after 0x60C00003 (withFlags 5)).map fun t => (t.chipState.v0.ctrl, t.results)) = some (⟨.noise, 5⟩, [.ok]) := by decide

/-- V23. -/
theorem test_setv_shape_too_large :
    ((after 0x60C00004 fresh).map fun t => (t.chipState.v0.ctrl, t.results)) = some (⟨.square, 0⟩, [.err (.rangeError .shape 4)]) := by decide

/-- V24. -/
theorem test_setv_cflags :
    ((after 0x64E00005 fresh).map fun t => (t.chipState.v1.ctrl, t.results)) = some (⟨.square, 5⟩, [.ok]) := by decide

/-- V26. -/
theorem test_setv_cflags_too_large :
    ((after 0x64E00010 fresh).map fun t => (t.chipState.v1.ctrl, t.results)) = some (⟨.square, 0⟩, [.err (.rangeError .cflags 16)]) := by decide

/-- V28. -/
theorem test_setv_cflags_add :
    ((after 0x61000008 (withFlags 5)).map fun t => (t.chipState.v0.ctrl, t.results)) = some (⟨.square, 13⟩, [.ok]) := by decide

/-- V31. -/
theorem test_setv_cflags_add_too_large :
    ((after 0x61000020 fresh).map fun t => (t.chipState.v0.ctrl, t.results)) = some (⟨.square, 0⟩, [.err (.rangeError .cflags 32)]) := by decide

/-- V32. -/
theorem test_setv_cflags_remove :
    ((after 0x61200001 (withFlags 5)).map fun t => (t.chipState.v0.ctrl, t.results)) = some (⟨.square, 4⟩, [.ok]) := by decide

/-- V35. -/
theorem test_setv_cflags_remove_too_large :
    ((after 0x61200010 (withFlags 15)).map fun t => (t.chipState.v0.ctrl, t.results)) = some (⟨.square, 15⟩, [.err (.rangeError .cflags 16)]) := by decide

/-- V40. -/
theorem test_setf_cutoff :
    ((after 0x700007FF fresh).map fun t => (t.chipState.filter.cutoff, t.results)) = some (2047, [.ok]) := by decide

/-- V41. -/
theorem test_setf_cutoff_too_large :
    ((after 0x70000800 fresh).map fun t => (t.chipState.filter.cutoff, t.results)) = some (0, [.err (.rangeError .cutoff 2048)]) := by decide

/-- V42. -/
theorem test_setf_res :
    ((after 0x7020000F fresh).map fun t => (t.chipState.filter.res, t.results)) = some (15, [.ok]) := by decide

/-- V43. -/
theorem test_setf_res_too_large :
    ((after 0x70200010 fresh).map fun t => (t.chipState.filter.res, t.results)) = some (0, [.err (.rangeError .res 16)]) := by decide

/-- V45. -/
theorem test_setf_vol :
    ((after 0x7040000F fresh).map fun t => (t.chipState.filter.vol, t.results)) = some (15, [.ok]) := by decide

/-- V46. -/
theorem test_setf_vol_too_large :
    ((after 0x70400010 fresh).map fun t => (t.chipState.filter.vol, t.results)) = some (7, [.err (.rangeError .vol 16)]) := by decide

/-- V49. -/
theorem test_setf_mode :
    ((after 0x70600000 (withSets 5 0)).map fun t => (t.chipState.filter.mode, t.results)) = some (0, [.ok]) := by decide

/-- V50. -/
theorem test_setf_mode_too_large :
    ((after 0x70600010 fresh).map fun t => (t.chipState.filter.mode, t.results)) = some (0, [.err (.rangeError .mode 16)]) := by decide

/-- V52. -/
theorem test_setf_mode_add :
    ((after 0x70800002 (withSets 1 0)).map fun t => (t.chipState.filter.mode, t.results)) = some (3, [.ok]) := by decide

/-- V53. -/
theorem test_setf_mode_add_too_large :
    ((after 0x70800011 fresh).map fun t => (t.chipState.filter.mode, t.results)) = some (0, [.err (.rangeError .mode 17)]) := by decide

/-- V54. -/
theorem test_setf_mode_remove :
    ((after 0x70A00004 (withSets 5 0)).map fun t => (t.chipState.filter.mode, t.results)) = some (1, [.ok]) := by decide

/-- V56. -/
theorem test_setf_mode_remove_too_large :
    ((after 0x70A000FF (withSets 5 0)).map fun t => (t.chipState.filter.mode, t.results)) = some (5, [.err (.rangeError .mode 255)]) := by decide

/-- V57. -/
theorem test_setf_targets :
    ((after 0x70C00009 fresh).map fun t => (t.chipState.filter.targets, t.results)) = some (9, [.ok]) := by decide

/-- V58. -/
theorem test_setf_targets_too_large :
    ((after 0x70C00010 fresh).map fun t => (t.chipState.filter.targets, t.results)) = some (0, [.err (.rangeError .targets 16)]) := by decide

/-- V60. -/
theorem test_setf_targets_add :
    ((after 0x70E00006 (withSets 0 3)).map fun t => (t.chipState.filter.targets, t.results)) = some (7, [.ok]) := by decide

/-- V61. -/
theorem test_setf_targets_add_too_large :
    ((after 0x70E00010 fresh).map fun t => (t.chipState.filter.targets, t.results)) = some (0, [.err (.rangeError .targets 16)]) := by decide

/-- V62. -/
theorem test_setf_targets_remove :
    ((after 0x71000008 (withSets 0 9)).map fun t => (t.chipState.filter.targets, t.results)) = some (1, [.ok]) := by decide

/-- V64. -/
theorem test_setf_targets_remove_too_large :
    ((after 0x71001000 (withSets 0 9)).map fun t => (t.chipState.filter.targets, t.results)) = some (9, [.err (.rangeError .targets 4096)]) := by decide

/-! ### Payloads (part 4) -/

/-- E1 to E9. -/
theorem test_enc_envelope :
    [(⟨0, 0, 7, 0⟩ : Envelope), ⟨0, 0, 0, 0⟩, ⟨15, 15, 15, 15⟩, ⟨1, 2, 3, 4⟩, ⟨15, 0, 0, 15⟩, ⟨0, 15, 15, 0⟩, ⟨9, 0, 7, 0⟩,
      ⟨2, 4, 10, 6⟩, ⟨8, 0, 0, 1⟩].map encEnvelope =
      [[0x00, 0x70], [0x00, 0x00], [0xFF, 0xFF], [0x12, 0x34], [0xF0, 0x0F], [0x0F, 0xF0], [0x90, 0x70], [0x24, 0xA6],
        [0x80, 0x01]] := by decide

/-- E10 to E13, E18 to E24. -/
theorem test_enc_control :
    [(⟨.square, 0⟩ : Control), ⟨.triangle, 0⟩, ⟨.sawtooth, 0⟩, ⟨.noise, 0⟩, ⟨.square, 2⟩, ⟨.square, 4⟩, ⟨.square, 8⟩,
      ⟨.triangle, 5⟩, ⟨.noise, 15⟩, ⟨.triangle, 15⟩, ⟨.sawtooth, 9⟩].map encControl =
      [0x40, 0x10, 0x20, 0x80, 0x42, 0x44, 0x48, 0x15, 0x8F, 0x1F, 0x29] := by decide

/-- E25, E26, E28, E29, E32. -/
theorem test_enc_voice :
    [(⟨7217, 2048, ⟨0, 0, 7, 0⟩, ⟨.square, 0⟩⟩ : Voice), ⟨7281, 2048, ⟨0, 0, 7, 0⟩, ⟨.square, 0⟩⟩,
      ⟨65535, 4095, ⟨15, 15, 15, 15⟩, ⟨.noise, 15⟩⟩, ⟨7493, 2048, ⟨2, 4, 10, 6⟩, ⟨.sawtooth, 1⟩⟩,
      ⟨4660, 2748, ⟨1, 2, 3, 4⟩, ⟨.triangle, 6⟩⟩].map encVoice =
      [[0x31, 0x1C, 0x00, 0x08, 0x40, 0x00, 0x70], [0x71, 0x1C, 0x00, 0x08, 0x40, 0x00, 0x70],
        [0xFF, 0xFF, 0xFF, 0x0F, 0x8F, 0xFF, 0xFF], [0x45, 0x1D, 0x00, 0x08, 0x21, 0x24, 0xA6],
        [0x34, 0x12, 0xBC, 0x0A, 0x16, 0x12, 0x34]] := by decide

/-- E35, E37, E40, E42, E43, E46 (fields in the order cutoff, resonance, volume, mode, targets). -/
theorem test_enc_filter :
    [(⟨0, 0, 7, 0, 0⟩ : Machine.Filter), ⟨2047, 15, 15, 15, 15⟩, ⟨1189, 0, 15, 1, 1⟩, ⟨1023, 0, 7, 0, 0⟩, ⟨0, 10, 7, 0, 5⟩,
      ⟨1365, 3, 12, 6, 8⟩].map encFilter =
      [[0x00, 0x00, 0x00, 0x07], [0x07, 0xFF, 0xFF, 0xFF], [0x05, 0x94, 0x01, 0x1F], [0x07, 0x7F, 0x00, 0x07],
        [0x00, 0x00, 0xA5, 0x07], [0x05, 0xAA, 0x38, 0x6C]] := by decide

/-- A9 to A16, A18 to A24. -/
theorem test_addresses :
    [6, 7, 13, 14, 20, 21, 24].map (fun k => (wireAddr .linear k, wireAddr .shifted k)) =
      [(0x06, 0x0C), (0x07, 0x0E), (0x0D, 0x1A), (0x0E, 0x1C), (0x14, 0x28), (0x15, 0x2A), (0x18, 0x30)] ∧
    [0, 24, 127].map resetAddr = [0x01, 0x31, 0xFF] ∧
    [observe .shifted 0x2A, observe .linear 0x2A, observe .linear 0x15, observe .shifted 0x15] =
      [.register 21, .neverSent, .register 21, .resetSignal] := by decide

/-! ### Transport (part 6), each one step on a word -/

/-- T30: the trace. -/
theorem test_write_voice_trace :
    ((after 0x24000000 fresh).map fun t => (t.trace, t.phase, t.cs, t.rst)) =
      some ([.cs .low, .tx [0x07, 0x31], .cs .high, .cs .low, .tx [0x08, 0x1C], .cs .high, .cs .low, .tx [0x09, 0x00],
        .cs .high, .cs .low, .tx [0x0A, 0x08], .cs .high, .cs .low, .tx [0x0B, 0x40], .cs .high, .cs .low,
        .tx [0x0C, 0x00], .cs .high, .cs .low, .tx [0x0D, 0x70], .cs .high], .idle, .driven .high, .undriven) := by decide

/-- T33: `SHIFTED`, `PER_GROUP`, settle 5. -/
theorem test_write_voice_per_group :
    ((after 0x24000000 (State.resetWith { conv := .shifted, framing := .perGroup, tSettle := 5 })).map State.trace) =
      some [.cs .low, .tx [0x0E, 0x31], .tx [0x10, 0x1C], .tx [0x12, 0x00], .tx [0x14, 0x08], .tx [0x16, 0x40],
        .tx [0x18, 0x00], .tx [0x1A, 0x70], .cs .high, .delay 5 .us] := by decide

/-- T34: the trace and the chip image. -/
theorem test_write_filter :
    ((after 0x30000000 fresh).map fun t => (t.trace, (image t).drop 20)) =
      some ([.cs .low, .tx [0x15, 0x00], .cs .high, .cs .low, .tx [0x16, 0x00], .cs .high, .cs .low, .tx [0x17, 0x00],
        .cs .high, .cs .low, .tx [0x18, 0x07], .cs .high], [none, some 0x00, some 0x00, some 0x00, some 0x07]) := by decide

/-- T36: `SHIFTED`, `PER_GROUP`. -/
theorem test_write_filter_per_group :
    ((after 0x30000000 (State.resetWith { conv := .shifted, framing := .perGroup })).map State.trace) =
      some [.cs .low, .tx [0x2A, 0x00], .tx [0x2C, 0x00], .tx [0x2E, 0x00], .tx [0x30, 0x07], .cs .high] := by decide

/-- R190: `CHIP[0..20]` and nothing else. -/
theorem test_write_all_voices :
    ((after 0x40000000 fresh).map fun t => (image t, t.trace.length)) =
      some ([some 0x31, some 0x1C, some 0x00, some 0x08, some 0x40, some 0x00, some 0x70, some 0x31, some 0x1C, some 0x00,
        some 0x08, some 0x40, some 0x00, some 0x70, some 0x31, some 0x1C, some 0x00, some 0x08, some 0x40, some 0x00,
        some 0x70, none, none, none, none], 63) := by decide

/-- T44, the row `SHIFTED`, `PER_GROUP`, settle 2. -/
theorem test_initialize_counts :
    ((after 0x50000000 (State.resetWith { conv := .shifted, framing := .perGroup, tSettle := 2 })).map fun t =>
      (t.trace.length, t.trace.count (.cs .low), (sentBytes t.trace).length, t.trace.count (.delay 2 .us))) =
      some (37, 4, 50, 4) := by decide

set_option maxRecDepth 2000 in
/-- P1, the image after `INITIALIZE`. -/
theorem test_initialize_image :
    ((after 0x50000000 fresh).map fun t => ((image t).drop 18, t.trace.length)) =
      some ([some 0x40, some 0x00, some 0x70, some 0x00, some 0x00, some 0x00, some 0x07], 75) := by decide

/-- T42: after a `WRITE_FILTER`, the image goes back to unknown (`LINEAR`), and T41: no settle after a reset. -/
theorem test_reset_linear :
    ((after 0x10000000 { State.resetWith { conv := .linear, tResetLine := 15, tSettle := 3 } with
        chip := [(21, 0x00), (24, 0x07)], cs := .driven .high }).map fun t => (t.trace, t.chip, t.cs, t.rst, t.phase)) =
      some ([.rst .low, .delay 15 .ms, .rst .high], [], .driven .high, .driven .high, .idle) := by decide

/-- T40. -/
theorem test_reset_shifted :
    ((after 0x10000000 (State.resetWith oddConfig)).map fun t => (t.trace, t.cs, t.rst, t.chipState)) =
      some ([.cs .low, .tx [0x31, 0xFF], .delay 20 .us, .cs .high], .driven .high, .undriven, ChipState.reset) := by decide

/-- X1, X10, X14, X20, X21, X22: results and the advance of `pc` whatever the result (R26), and T43: no event, no phase
change. -/
theorem test_errors :
    [0x00000000, 0x4C000000, 0x2C200000, 0x74000800, 0x2C000000, 0x6C201000].map (fun c =>
      (after c fresh).map fun t => (t.results, t.pc)) =
      [some ([.err (.illegalCommand 0)], 1), some ([.err (.illegalCommand 0x4C000000)], 1),
        some ([.err (.illegalCommand 0x2C200000)], 1), some ([.err (.illegalCommand 0x74000800)], 1),
        some ([.err (.rangeError .voiceIndex 3)], 1), some ([.err (.rangeError .voiceIndex 3)], 1)] ∧
    ((after 0x2C000000 fresh).map fun t => (t.trace, t.phase)) = some ([], .uninit) := by decide

/-- A register frame inside a write command (R183, R78): register 7 of a `SHIFTED` block. -/
theorem test_frame_shifted :
    ((afterFrame 0x0E31 freshShifted).map fun t => (t.trace, t.chip, t.results, t.pc)) =
      some ([.tx [0x0E, 0x31]], [(7, 0x31)], [], 0) := by decide

/-- The same address byte under `LINEAR` names register 14 (R78). -/
theorem test_frame_linear :
    ((afterFrame 0x0E31 fresh).map fun t => (t.trace, t.chip)) = some ([.tx [0x0E, 0x31]], [(14, 0x31)]) := by decide

/-- The reset frame inside `RESET` (R197), the open bits of T40. -/
theorem test_frame_reset :
    ((nextOf (step (aboutReset 0x31FF { State.resetWith oddConfig with chip := [(0, 0x31)] }))).map fun t =>
      (t.trace, t.chip)) = some ([.tx [0x31, 0xFF]], []) := by decide

/-- A24 and R77: a block sends no reset frame but its own. -/
theorem test_frame_reset_of_another_block :
    step (aboutReset 0x31FF freshShifted) = .refused .frameNeverSent ∧
    step (aboutReset 0x1500 freshShifted) = .refused .frameNeverSent ∧
    (nextOf (step (aboutReset 0x1500 (State.resetWith { conv := .shifted, resetFrameIndex := 10 })))).isSome = true :=
  ⟨rfl, rfl, by decide⟩

/-- R90 (a) and (b): a high nibble in `PW_HI`, no shape bit and two shape bits in `CONTROL`, a bit 3 in `FC_LO`. -/
theorem test_frame_bytes_never_sent :
    step (aboutFrame 0x0318 fresh) = .refused .frameNeverSent ∧ step (aboutFrame 0x0400 fresh) = .refused .frameNeverSent ∧
    step (aboutFrame 0x0430 fresh) = .refused .frameNeverSent ∧ step (aboutFrame 0x15FF fresh) = .refused .frameNeverSent :=
  ⟨rfl, rfl, rfl, rfl⟩

/-- R50, R55: outside a command no frame is sent, and inside one only the frame it is at. -/
theorem test_frame_outside_command :
    exec (.frameLinearV0FreqLo 0x31) fresh = .refused .frameOutsideCommand ∧
    exec (.frameLinearV0FreqHi 0x1C) (aboutFrame 0x0031 fresh) = .refused .frameOutsideCommand ∧
    exec (.frameShiftedReset 0 0) (aboutFrame 0x0100 freshShifted) = .refused .frameOutsideCommand := ⟨rfl, rfl, rfl⟩

/-- No step starts in the middle of a command where no frame is due (R26, R27). -/
theorem test_step_inside_command : step (about 0x30000000 (fresh.setPhase .transmitting)) = .refused .insideCommand := rfl

/-- How a program runs from reset: with nothing placed the run is over, and a placed word is the next one. -/
theorem test_with_fetch_word :
    nextOf (step State.reset) = none ∧
    ((nextOf (step (State.reset.withFetchWord 32 0x70000800))).map State.results) =
      some [.err (.rangeError .cutoff 2048)] ∧
    ((nextOf (step (State.reset.withFetchWord 16 0x3007))).map fun t => (t.trace, t.cfg.conv)) =
      some ([.tx [0x30, 0x07]], .shifted) ∧
    ((nextOf (step (State.reset.withFetchWord 16 0x31FF))).map fun t => (t.trace, t.cfg.resetFrameIndex)) =
      some ([.tx [0x31, 0xFF]], 24) := by decide

/-! ### Assembler (R93, R95) -/

theorem test_assemble_lines :
    ["SETV.FREQ 0, 0x1D45 ; a note", "SETV.SHAPE 0, NOISE", "SETV.CFLAGS 1, GATE|RING", "SETF.MODE LP|HP",
      "SETF.TARGETS V1|EXT", "GATE_OFF 0", "ROUTE_ON V2", "WRITE_VOICE 1"].map assembleLine =
      [.command (.setvFreq 0 7493), .command (.setvShape 0 3), .command (.setvCflags 1 5), .command (.setfMode 5),
        .command (.setfTargets 9), .command (.setvCflagsRemove 0 1), .command (.setfTargetsAdd 2),
        .command (.writeVoice 1)] := by decide

/-- The listing of P1. -/
theorem test_assemble_program :
    assemble ["; bring-up", "RESET", "", "INITIALIZE"] = some [0x10000000, 0x50000000] := by decide

theorem test_assemble_refuses :
    ["NOP", "SETV.PW 1", "SETF.VOL 70000", "WRITE_VOICE x"].map assembleLine =
      [.notACommand, .notACommand, .notACommand, .notACommand] := by decide

/-! ### Witnesses: each statement with hypotheses, a concrete case that meets them together, at the edges of its clauses -/

/-- Both cases of the hypothesis, for both conventions. -/
theorem witness_DecodeOfEncode :
    (Instr.setvPw 3 4096).conv? = none ∧ (Instr.frameLinearModeVol 0xFF).conv? = some .linear ∧
    (Instr.frameShiftedModeVol 0xFF).conv? = some .shifted ∧ (Instr.frameShiftedReset 127 0xFF).conv? = some .shifted := by
  decide

theorem witness_EncodeOfDecode :
    decodeSlot .linear (.command 0x61200002) = .ok (.setvCflagsRemove 0 2) ∧
    decodeSlot .linear (.frame 0x1807) = .ok (.frameLinearModeVol 0x07) ∧
    decodeSlot .shifted (.frame 0x3007) = .ok (.frameShiftedModeVol 0x07) ∧
    decodeSlot .shifted (.frame 0xFFA5) = .ok (.frameShiftedReset 127 0xA5) := by decide

/-- The last field of each table decodes and the next field number does not (X15, X18). -/
theorem witness_CommandWordsAreTheTables :
    (decodeCommand 0x6D20FFFF).toOption.isSome = true ∧ (decodeCommand 0x6D400000).toOption = none ∧
    (decodeCommand 0x7100FFFF).toOption.isSome = true ∧ (decodeCommand 0x71200000).toOption = none := by decide

theorem witness_StepRunsDecodedInstruction :
    ((about 0x24000000 fresh).cfg.wf = true ∧ (about 0x24000000 fresh).due = none ∧
      (about 0x24000000 fresh).phase.transient = false ∧ (about 0x24000000 fresh).program[0]? = some 0x24000000 ∧
      decodeCommand 0x24000000 = .ok (.writeVoice 1)) ∧
    (aboutFrame 0x1807 fresh).cfg.wf = true ∧ (aboutFrame 0x1807 fresh).due = some 0x1807 ∧
    decodeFrame .linear 0x1807 = .ok (.frameLinearModeVol 0x07) := by decide

theorem witness_StepRaisesIllegalCommand :
    (about 0x61400000 fresh).cfg.wf = true ∧ (about 0x61400000 fresh).due = none ∧
    (about 0x61400000 fresh).phase.transient = false ∧ (about 0x61400000 fresh).program[0]? = some 0x61400000 ∧
    decodeCommand 0x61400000 = .error .noSuchField := by decide

theorem witness_CommandStepsAlwaysComplete :
    (about 0x61400000 fresh).cfg.wf = true ∧ (about 0x61400000 fresh).due = none ∧
    (about 0x61400000 fresh).phase.transient = false ∧ (about 0x61400000 fresh).program[0]? = some 0x61400000 := by decide

/-- One state for each stop, and one that goes on. -/
theorem witness_StepStopsOnlyHere :
    step fresh = .fault .programEnd ∧ step (State.resetWith { conv := .linear, tResetLine := 9 }) = .refused .badConfiguration ∧
    step (aboutFrame 0x1900 fresh) = .refused .frameNeverSent ∧ observe .linear (frameAddress 0x1900) = .neverSent ∧
    step (fresh.setPhase .resetting) = .refused .insideCommand ∧ (after 0x30000000 fresh).isSome = true :=
  ⟨rfl, rfl, rfl, rfl, rfl, by decide⟩

/-- The three voices are the voice operands 0 to 2; 3 is the one left. -/
theorem witness_SetvFreqStoresFrequency :
    [VoiceIx.v0, .v1, .v2].map vselOf = [0, 1, 2] ∧ [0, 1, 2].all (· != (3 : BitVec 2)) = true := by decide

theorem witness_SetvPwStoresPulseWidth : (4095 : U16).toNat ≤ 4095 ∧ 4095 < (4096 : U16).toNat := by decide

theorem witness_SetvEnvelopeFields : (15 : U16).toNat ≤ 15 ∧ 15 < (16 : U16).toNat := by decide

theorem witness_SetvShapeSelectsShape :
    3 < (4 : U16).toNat ∧ [Shape.triangle, .sawtooth, .square, .noise].map shapeCode = [0, 1, 2, 3] := by decide

theorem witness_SetvControlFlagSets : (15 : U16).toNat ≤ 15 ∧ 15 < (16 : U16).toNat := by decide

theorem witness_SetfCutoffStoresCutoff : (2047 : U16).toNat ≤ 2047 ∧ 2047 < (2048 : U16).toNat := by decide

theorem witness_SetfResonanceAndVolume : (15 : U16).toNat ≤ 15 ∧ 15 < (16 : U16).toNat := by decide

theorem witness_SetfModeSets : (15 : U16).toNat ≤ 15 ∧ 15 < (16 : U16).toNat := by decide

theorem witness_SetfTargetSets : (15 : U16).toNat ≤ 15 ∧ 15 < (16 : U16).toNat := by decide

/-- An update that returns `Ok` and changes `S`, and one that does not return `Ok`. -/
theorem witness_StateUpdatesReachNothingElse :
    exec (.setvPw 1 4095) fresh =
      .next { fresh with chipState := { ChipState.reset with v1 := { Voice.reset with pw := 4095 } }, results := [.ok] } ∧
    exec (.setvPw 1 4096) fresh = .next { fresh with results := [.err (.rangeError .pw 4096)] } := ⟨rfl, rfl⟩

/-- Two fields of one voice, one field of two voices, a voice and the filter. -/
theorem witness_StateUpdatesOfDifferentFieldsCommute :
    setField? (.setvAttack 1 9) = some (.attack 1) ∧ setField? (.setvDecay 1 4) = some (.decay 1) ∧
    setField? (.setvAttack 2 9) = some (.attack 2) ∧ setField? (.setfModeAdd 1) = some .mode ∧
    SetField.attack 1 ≠ .decay 1 ∧ SetField.attack 1 ≠ .attack 2 ∧ SetField.attack 1 ≠ .mode := by decide

theorem witness_RangeErrorChangesNothing :
    exec (.setfVol 16) fresh = .next (fresh.onlyResult (.err (.rangeError .vol 16))) ∧
    (fresh.onlyResult (.err (.rangeError .vol 16))).results = fresh.results ++ [.err (.rangeError .vol 16)] := ⟨rfl, rfl⟩

/-- An ill-formed command raises, a well-formed one at the edge does not. -/
theorem witness_RangeErrorExactlyWhenIllFormed :
    (Instr.setvShape 2 4).conv? = none ∧ (Instr.setvShape 2 4).wellFormed = false ∧ (Instr.setvShape 2 3).conv? = none ∧
    (Instr.setvShape 2 3).wellFormed = true ∧
    ((after 0x68C00003 fresh).map State.results) = some [.ok] := by decide

/-- X21 and X22. -/
theorem witness_VoiceIndexErrorComesFirst :
    decodeCommand 0x2C000000 = .ok (.writeVoice 3) ∧ opField 0x2C000000 = 2 ∧ vselField 0x2C000000 = 3 ∧
    decodeCommand 0x6C201000 = .ok (.setvPw 3 4096) ∧ opField 0x6C201000 = 6 ∧ vselField 0x6C201000 = 3 := by decide

theorem witness_VoicePayloadBytes :
    ({ Voice.reset with freq := 0xFFFF, pw := 0xFFF } : Voice).freq = 0xFFFF ∧
    ({ Voice.reset with freq := 0xFFFF, pw := 0xFFF } : Voice).pw = 0xFFF := by decide

theorem witness_FilterPayloadBytes :
    ({ Filter.reset with mode := 15, vol := 0 } : Machine.Filter).mode = 15 ∧
    ({ Filter.reset with mode := 15, vol := 0 } : Machine.Filter).vol = 0 ∧
    ({ Filter.reset with cutoff := 2047 } : Machine.Filter).cutoff = 2047 := by decide

/-- Payloads the decoders accept and payloads they do not: a second shape bit, a high nibble of `PW_HI`, a bit 3 of
`FC_LO`. -/
theorem witness_PayloadDecodersInvertEncoders :
    decVoice [0x31, 0x1C, 0x00, 0x08, 0x40, 0x00, 0x70] = some Voice.reset ∧
    decVoice [0x31, 0x1C, 0x00, 0x08, 0x60, 0x00, 0x70] = none ∧ decVoice [0x31, 0x1C, 0x00, 0x18, 0x40, 0x00, 0x70] = none ∧
    decFilter [0x00, 0x00, 0x00, 0x07] = some Filter.reset ∧ decFilter [0x08, 0x00, 0x00, 0x07] = none := by decide

/-- The last byte of each group, and the first number that is no byte of it. -/
theorem witness_GroupsCoverTheRegisters :
    6 < (payloadOf ChipState.reset (.voice .v2)).length ∧ ¬ 7 < (payloadOf ChipState.reset (.voice .v2)).length ∧
    3 < (payloadOf ChipState.reset .filter).length ∧ ¬ 4 < (payloadOf ChipState.reset .filter).length ∧
    indexOf (.voice .v2) 6 = 20 ∧ indexOf .filter 0 = 21 := by decide

theorem witness_WireAddressOfEveryRegister :
    (24 < 25 ∧ (wireAddr .linear 24).toNat = 24 ∧ (wireAddr .shifted 24).toNat = 48) ∧ 23 < 24 ∧
    (6 < 7 ∧ (wireAddr .shifted (indexOf (.voice .v2) 6)).toNat = 40) := by decide

theorem witness_ObserverReadsBackTheWire :
    observe .linear 24 = .register 24 ∧ observe .linear 25 = .neverSent ∧ observe .shifted 48 = .register 24 ∧
    observe .shifted 49 = .resetSignal ∧ observe .shifted 50 = .neverSent ∧ ownerOf 20 = some (.voice .v2, 6) ∧
    ownerOf 21 = some (.filter, 0) ∧ ownerOf 24 = some (.filter, 3) ∧ ownerOf 25 = none := by decide

theorem witness_ConstrainedIntegersFailAndNeverTruncate :
    11 ∈ [4, 11, 12] ∧ 2047 < 2 ^ 11 ∧ 2 ^ 11 ≤ 2048 ∧ mkValue 11 .cutoff 2047 = .ok 2047 ∧
    mkValue 11 .cutoff 2048 = .error (.rangeError .cutoff 2048) := by decide

/-- The first and the last register of the group and their neighbours. -/
theorem witness_WriteVoiceSendsItsSevenRegisters :
    (0 < 7 ∧ indexOf (.voice .v1) 0 = 7) ∧ (6 < 7 ∧ indexOf (.voice .v1) 6 = 13) ∧
    (List.range 7).all (fun i => 6 != indexOf (.voice .v1) i && 14 != indexOf (.voice .v1) i) = true := by decide

theorem witness_WriteFilterSendsItsFourRegisters :
    3 < 4 ∧ indexOf .filter 3 = 24 ∧ (List.range 4).all (fun i => 20 != indexOf .filter i) = true := by decide

theorem witness_WriteAllVoicesSendsTwentyOneRegisters :
    ((after 0x40000000 fresh).map fun t => (Memory.read 20 t.chip, Memory.read 21 t.chip)) = some (some 0x70, none) ∧
    20 < 21 ∧ imageByte ChipState.reset 20 = some 0x70 := by decide

theorem witness_InitializeMakesTheImageMatchTheState :
    ((after 0x50000000 fresh).map fun t => (Memory.read 24 t.chip, Memory.read 25 t.chip)) = some (some 0x07, none) ∧
    24 < 25 ∧ imageByte ChipState.reset 24 = some 0x07 := by decide

theorem witness_ResetUnderLinearPulsesTheLine : fresh.cfg.conv = .linear ∧ fresh.cfg.wf = true := by decide

theorem witness_ResetUnderShiftedSendsTheResetFrame :
    (State.resetWith oddConfig).cfg.conv = .shifted ∧ (State.resetWith oddConfig).cfg.wf = true := by decide

theorem witness_InitializeEventCounts :
    ({ conv := .linear } : Config).framing = .perRegister ∧ ({ conv := .linear } : Config).tSettle = 0 ∧
    ({ conv := .shifted, framing := .perGroup, tSettle := 1 } : Config).framing = .perGroup ∧
    0 < ({ conv := .shifted, framing := .perGroup, tSettle := 1 } : Config).tSettle := by decide

/-- A command that makes fallible calls, with errors surfaced; what the calls answer is free. -/
theorem witness_TransportErrorExactlyWhenSurfacedFailure :
    Instr.reset.conv? = none ∧ ∃ t, exec .reset (State.resetWith { conv := .linear, surfaceErrors := true }) = .next t ∧
      t.trace[0]? = some (.rst .low) ∧ fallible (.rst .low) = true := ⟨rfl, _, rfl, rfl, rfl⟩

theorem witness_SurfaceErrorsChangesTheResultOnly :
    (∃ t, exec .reset (State.resetWith { conv := .linear, surfaceErrors := true }) = .next t) ∧
    ∃ t, exec (.frameLinearModeVol 0x07) (aboutFrame 0x1807 fresh) = .next t := ⟨⟨_, rfl⟩, _, rfl⟩

theorem witness_RunInvariantAtReset : oddConfig.wf = true ∧ ({ conv := .linear } : Config).wf = true := by decide

/-- A run of `WRITE_FILTER`, `RESET` after its first step. -/
def midRun : State :=
  (nextOf (step (fresh.setProgram [0x30000000, 0x10000000]))).getD fresh

theorem midRun_next : ∃ t, step midRun = .next t := ⟨_, rfl⟩

theorem midRun_inv : Inv midRun where
  cfgWf := by decide
  bus := rfl
  phase := by decide
  due := rfl
  cs := by decide
  rst := by decide
  chip := by decide
  chipWf := by decide
  results := by decide

theorem witness_EveryStepKeepsTheRunInvariant : Inv midRun ∧ ∃ t, step midRun = .next t := ⟨midRun_inv, midRun_next⟩

theorem witness_EveryStepKeepsTheImageCanonical :
    midRun.chip ≠ [] ∧ Memory.wf midRun.chip = true ∧ ∃ t, step midRun = .next t := ⟨by decide, by decide, midRun_next⟩

/-- A step between commands and one inside a command. -/
theorem witness_NoStepChangesTheConfiguration :
    (∃ t, step midRun = .next t) ∧ midRun.due = none ∧ ∃ t, step (aboutFrame 0x1807 fresh) = .next t :=
  ⟨midRun_next, rfl, _, rfl⟩

theorem witness_TraceAndResultsOnlyGrow : midRun.trace ≠ [] ∧ (∃ t, step midRun = .next t) ∧ ∃ t, step (aboutFrame 0x1807 fresh) = .next t :=
  ⟨by decide, midRun_next, _, rfl⟩

theorem witness_OnlyStateUpdatesChangeS :
    setField? .reset = none ∧ ∃ t, exec .reset midRun = .next t := ⟨rfl, _, rfl⟩

/-- A trace under each convention that holds every kind of event its clauses speak of. -/
theorem witness_BusDisciplineGivesR199AToG :
    BusSafe { conv := .linear, tSettle := 1 } [.rst .low, .delay 10 .ms, .rst .high, .cs .low, .tx [0x18, 0x07], .cs .high,
      .delay 1 .ms] ∧
    BusSafe oddConfig [.cs .low, .tx [0x31, 0xFF], .delay 20 .us, .cs .high, .cs .low, .tx [0x30, 0x07], .cs .high,
      .delay 5 .us] ∧ oddConfig.wf = true := ⟨rfl, rfl, by decide⟩

/-- The discipline is no empty premise: it refuses a byte outside chip-select, a second `CS(LOW)`, an open frame and a reset
line under `SHIFTED`. -/
theorem witness_BusDisciplineRefuses :
    [busRun { conv := .linear } .released [.tx [0x18, 0x07]], busRun { conv := .linear } .released [.cs .low, .cs .low],
      busRun { conv := .shifted } .released [.rst .low]] = [none, none, none] ∧
    busRun { conv := .linear } .released [.cs .low, .tx [0x18, 0x07]] ≠ some .released := by decide

/-- The last row of each convention, and a row whose data byte is at the edge of what the block writes. -/
theorem witness_RegisterFramesAreSentInsideTheirCommand :
    ((frameRows .linear 0xFF)[24]? = some (.frameLinearModeVol 0xFF, 24) ∧
      (Instr.frameLinearModeVol 0xFF).wellFormed = true ∧
      (aboutFrame 0x18FF fresh).cfg.conv = .linear ∧ (aboutFrame 0x18FF fresh).phase = .transmitting ∧
      (aboutFrame 0x18FF fresh).cs = .driven .low ∧ (aboutFrame 0x18FF fresh).due = some (wireAddr .linear 24 ++ (0xFF : Byte)) ∧
      ((afterFrame 0x18FF fresh).map fun t => (Memory.read 24 t.chip, Memory.read 23 t.chip)) = some (some 0xFF, none)) ∧
    (frameRows .shifted 0x0F)[3]? = some (.frameShiftedV0PwHi 0x0F, 3) ∧
    (Instr.frameShiftedV0PwHi 0x0F).wellFormed = true ∧ (aboutFrame 0x060F freshShifted).cfg.conv = .shifted ∧
    (aboutFrame 0x060F freshShifted).due = some (wireAddr .shifted 3 ++ (0x0F : Byte)) ∧
    ((afterFrame 0x060F freshShifted).map fun t => Memory.read 3 t.chip) = some (some 0x0F) := by decide

theorem witness_ResetFrameRowIsSentInsideReset :
    (State.resetWith oddConfig).cfg.conv = .shifted ∧ (aboutReset 0x31FF (State.resetWith oddConfig)).phase = .resetting ∧
    (24 : BitVec 7).toNat = oddConfig.resetFrameIndex ∧ (0xFF : Byte) = oddConfig.resetFrameData ∧
    (aboutReset 0x31FF (State.resetWith oddConfig)).cs = .driven .low ∧
    (aboutReset 0x31FF (State.resetWith oddConfig)).due = some (resetAddr 24 ++ (0xFF : Byte)) := by decide

/-- One state for each of the four cases. -/
theorem witness_FramesRunOnlyWhereTheBlockSendsThem :
    (Instr.frameShiftedFcLo 0x07).conv? = some .shifted ∧ encode (.frameShiftedFcLo 0x07) = .frame 0x2A07 ∧
    exec (.frameShiftedFcLo 0x07) (aboutFrame 0x2A07 fresh) = .refused .conventionMismatch ∧
    exec (.frameShiftedFcLo 0x08) (aboutFrame 0x2A08 freshShifted) = .refused .frameNeverSent ∧
    (∃ t, exec (.frameShiftedFcLo 0x07) (aboutFrame 0x2A07 freshShifted) = .next t) ∧
    exec (.frameShiftedFcLo 0x07) freshShifted = .refused .frameOutsideCommand := ⟨rfl, rfl, rfl, rfl, ⟨_, rfl⟩, rfl⟩

set_option maxRecDepth 2000 in
/-- A command that sends register frames and one that sends the reset frame. -/
theorem witness_EveryTransmissionIsAFrameOfTheTable :
    Instr.initializeChip.conv? = none ∧ Instr.reset.conv? = none ∧ (State.resetWith oddConfig).cfg.wf = true ∧
    (∃ t, exec .initializeChip (State.resetWith oddConfig) = .next t ∧ .tx [0x30, 0x07] ∈ t.trace) ∧
    ∃ t, exec .reset (State.resetWith oddConfig) = .next t ∧ .tx [0x31, 0xFF] ∈ t.trace :=
  ⟨rfl, rfl, by decide, ⟨_, rfl, by decide⟩, ⟨_, rfl, by decide⟩⟩

/-- An environment in which every launch premise holds of a `SHIFTED` block with every parameter at its default. -/
def goodEnv : Environment where
  foreignCalls := []
  selectLevel := .high
  resetLevel := .low
  transport := some { msbFirst := true, clockPolarity := false, clockPhase := false, bitRate := 1000000 }
  returns := fun _ => true
  blocked := fun _ => 12
  device := {
    conv := .shifted, framing := .perRegister, settle := 0, resetIndex := 0, resetData := 0,
    formats := [{ msbFirst := true, clockPolarity := false, clockPhase := false, bitRate := 1000000 }] }

/-- Each of P1 to P6 by itself makes the launch premises fail: R254, with the reset line low under `LINEAR` (P3), a reset hold
of 12 that returns after 11 (P5), and the other convention connected (P6). -/
theorem test_each_launch_premise_counts :
    launchPremises { goodEnv with foreignCalls := [.cs .low] } freshShifted = false ∧
    launchPremises { goodEnv with selectLevel := .low } freshShifted = false ∧
    goodEnv.resetHigh { conv := .linear } = false ∧
    launchPremises { goodEnv with transport := none } freshShifted = false ∧
    launchPremises { goodEnv with blocked := fun _ => 11 }
      ({ freshShifted with trace := [.delay 12 .us] } : State) = false ∧
    launchPremises goodEnv fresh = false := by decide

/-- R57: between the `TX` of a frame and its `CS(HIGH)` nothing is claimed of the chip, though `CHIP` has taken the write; after
`CS(HIGH)` the frame is open no more. -/
theorem test_open_frame_claims_nothing :
    (∃ t, step (aboutFrame 0x0E31 freshShifted) = .next t ∧ Memory.read 7 t.chip = some 0x31 ∧
      frameOpen t.trace = true ∧ frameOpen (driveCs .high t).trace = false) ∧
    frameOpen [.cs .low] = false ∧ frameOpen [.cs .low, .tx [0, 0], .delay 12 .us] = true :=
  ⟨⟨_, rfl, by decide⟩, by decide⟩

/-- The two sides of the premises. A trace of no call, or of a delay only, has no failed call whatever the environment does;
a state whose trace holds one call has none or has one as the environment chooses, and where it fails no call no state has one;
and each command answers a next state. The launch premises hold in `goodEnv` of a block after NEW and after each command. -/
theorem witness_ChipContentOnThePremises :
    freshShifted.NoCallFailed ∧ launchPremises goodEnv freshShifted = true ∧
    ({ freshShifted with trace := [.delay 1 .us] } : State).NoCallFailed ∧
    (Config.callFails 0 = false ↔ ({ freshShifted with trace := [.cs .low] } : State).NoCallFailed) ∧
    ((∀ n, Config.callFails n = false) → ∀ t : State, t.NoCallFailed) ∧
    (∃ t, exec .initializeChip freshShifted = .next t ∧ launchPremises goodEnv t = true) ∧
    (∃ t, exec (.writeVoice 2) freshShifted = .next t ∧ launchPremises goodEnv t = true) ∧
    (∃ t, exec .writeFilter freshShifted = .next t ∧ launchPremises goodEnv t = true) ∧
    (∃ t, exec .writeAllVoices freshShifted = .next t ∧ launchPremises goodEnv t = true) ∧
    (∃ t, exec .reset freshShifted = .next t ∧ launchPremises goodEnv t = true) ∧ frameOpen freshShifted.trace = false ∧
    (∃ t, exec (.frameShiftedV1FreqLo 0x31) (aboutFrame 0x0E31 freshShifted) = .next t) ∧ Inv freshShifted := by
  refine ⟨?_, by decide, ?_, ?_, fun h _ n _ _ _ => h n, ⟨_, rfl, by decide⟩, ⟨_, rfl, by decide⟩, ⟨_, rfl, by decide⟩,
    ⟨_, rfl, by decide⟩, ⟨_, rfl, by decide⟩, rfl, ⟨_, rfl⟩,
    ⟨by decide, rfl, rfl, rfl, rfl, rfl, rfl, rfl, rfl⟩⟩
  · intro n e h
    cases h
  · intro n e h hf
    cases n with
    | zero => cases h; cases hf
    | succ n => simp at h
  · constructor
    · intro hc n e h _
      cases n with
      | zero => exact hc
      | succ n => simp at h
    · intro h; exact h 0 (.cs .low) rfl rfl

end Sys2Proof.Tests
end

/-! ### What no step changes (R7, R26, R165) -/

namespace Sys2Proof.Machine

/-- The companion of `CommandEffect.frame`: a frame row is a part of the command under way, and what a whole command
leaves alone it leaves alone too. -/
theorem FrameEffect.frame {s t : State} (h : FrameEffect s t) :
    t.cfg = s.cfg ∧ t.program = s.program ∧ t.pc = s.pc := by
  obtain ⟨a, d, -, -, -, rfl⟩ := h
  exact ⟨rfl, rfl, rfl⟩

/-- Settles O52, by the two kinds of step of `step_effect`: a command, after which the counter moves on, or the frame
that is due. -/
theorem noStepChangesTheConfiguration : Obligations.NoStepChangesTheConfiguration := by
  intro s t h
  obtain ⟨-, ⟨hdue, -, u, hu, rfl⟩ | ⟨hdue, ht⟩⟩ := step_effect h
  · -- between commands: `t` is the command's end state `u` with the counter set
    obtain ⟨hcfg, hprogram, -⟩ := hu.frame
    exact ⟨hcfg, hprogram, (if_pos hdue).symm⟩
  · -- inside a command: the frame itself leaves the counter
    obtain ⟨hcfg, hprogram, hpc⟩ := ht.frame
    exact ⟨hcfg, hprogram, hpc.trans (if_neg hdue).symm⟩

end Sys2Proof.Machine

/-! ### The equations of `step` (R8, R26, R27)

What is fetched, and what `step` answers on each of its branches; the proofs below cite these and do not open `step`.
-/

namespace Sys2Proof.Machine

/-- With no frame due it is the phase alone that tells whether a command is under way (R27). -/
theorem insideCommand_eq_transient {s : State} (hdue : s.due = none) : insideCommand s = s.phase.transient := by
  simp [insideCommand, hdue]

theorem insideCommand_of_due {s : State} {f : FrameWord} (hdue : s.due = some f) : insideCommand s = false := by
  simp [insideCommand, hdue]

theorem fetch_of_due {s : State} {f : FrameWord} (hdue : s.due = some f) : fetch s = some (.frame f) := by
  simp [fetch, hdue]

theorem fetch_of_program {s : State} {w : CommandWord} (hdue : s.due = none) (hw : s.program[s.pc]? = some w) :
    fetch s = some (.command w) := by
  simp [fetch, hdue, hw]

theorem fetch_eq_none_iff {s : State} : fetch s = none ↔ s.due = none ∧ s.program.length ≤ s.pc := by
  cases hdue : s.due with
  | some f => simp [fetch_of_due hdue]
  | none => simp [fetch, hdue]

/-- A command that answers a next state moves the counter on by one. -/
theorem advance_command_next (w : CommandWord) (t : State) :
    advance (.command w) (.next t) = .next (t.setPc (t.pc + 1)) := rfl

/-- A frame is a part of a command: its outcome is the step's, and the counter stays. -/
theorem advance_frame (f : FrameWord) (o : Host.Outcome State Fault Refusal) : advance (.frame f) o = o := by
  cases o <;> rfl

theorem step_of_badConfiguration {s : State} (hwf : s.cfg.wf = false) : step s = .refused .badConfiguration := by
  simp [step, hwf]

theorem step_of_insideCommand {s : State} (hwf : s.cfg.wf = true) (hin : insideCommand s = true) :
    step s = .refused .insideCommand := by
  simp [step, hwf, hin]

theorem step_of_fetch_none {s : State} (hwf : s.cfg.wf = true) (hin : insideCommand s = false) (hs : fetch s = none) :
    step s = .fault .programEnd := by
  simp [step, hwf, hin, hs]

theorem step_of_decodeSlot_ok {s : State} {slot : Slot} {i : Instr} (hwf : s.cfg.wf = true)
    (hin : insideCommand s = false) (hs : fetch s = some slot) (hd : decodeSlot s.cfg.conv slot = .ok i) :
    step s = advance slot (exec i s) := by
  simp [step, hwf, hin, hs, hd]

theorem step_of_decodeSlot_error {s : State} {slot : Slot} {r : Reject} (hwf : s.cfg.wf = true)
    (hin : insideCommand s = false) (hs : fetch s = some slot) (hd : decodeSlot s.cfg.conv slot = .error r) :
    step s = advance slot (undecoded slot s) := by
  simp [step, hwf, hin, hs, hd]

/-- An address byte that the observer gives no meaning is no frame of the table (R90 (d), R166). -/
theorem decodeFrame_of_neverSent {conv : Conv} {w : FrameWord} (h : observe conv (frameAddress w) = .neverSent) :
    decodeFrame conv w = .error .addressNeverSent := by
  simp [decodeFrame, h]

/-- Settles O6: between commands the slot is the program's entry, inside one it is the frame that is due. -/
theorem stepRunsDecodedInstruction : Obligations.StepRunsDecodedInstruction := by
  constructor
  · intro s w i hwf hdue hphase hw hd
    rw [step_of_decodeSlot_ok hwf ((insideCommand_eq_transient hdue).trans hphase) (fetch_of_program hdue hw) hd]
    cases exec i s <;> rfl
  · intro s f i hwf hdue hd
    rw [step_of_decodeSlot_ok hwf (insideCommand_of_due hdue) (fetch_of_due hdue) hd, advance_frame]

/-! ### The state after `NEW` (R44) -/

/-- The three voices have one reset value (R21). -/
theorem ChipState.reset_voice (ix : VoiceIx) : ChipState.reset.voice ix = Voice.reset := by
  cases ix <;> rfl

/-- Settles O48: the rows of R44, the voices by `ChipState.reset_voice`; a chip image that lists nothing is unknown
everywhere (R57). -/
theorem resetStateOfTheBlock : Obligations.ResetStateOfTheBlock := by
  intro c
  exact ⟨rfl, ChipState.reset_voice, rfl, rfl, rfl, rfl, rfl, rfl, rfl, fun _ => rfl⟩

/-- `NEW` makes no event, so all that `Inv` computes from the trace is what it is for the empty one. -/
theorem inv_resetWith {c : Config} (hwf : c.wf = true) : Inv (State.resetWith c) where
  cfgWf := hwf
  bus := busSafe_nil c
  phase := rfl
  due := rfl
  cs := rfl
  rst := rfl
  chip := rfl
  chipWf := rfl
  results := rfl

/-- Settles O49: `State.reset` is the state after `NEW` of a configuration whose defaults meet the constraints of R8. -/
theorem runInvariantAtReset : Obligations.RunInvariantAtReset :=
  ⟨fun _ hwf => inv_resetWith hwf, inv_resetWith rfl⟩

/-! ### Every command completes (R26, R229)

A command answers a next state whatever its operands: an operand that fails its check raises an error, and to raise one
is to deliver a result. A frame row can refuse, but nothing an instruction does is a fault.
-/

theorem withOperand_next {α : Type} (x : Except CommandError α) (s : State)
    {k : α → Host.Outcome State Fault Refusal} (hk : ∀ a, ∃ t, k a = .next t) : ∃ t, withOperand x s k = .next t := by
  cases x with
  | ok a => exact hk a
  | error e => exact ⟨_, rfl⟩

theorem updateVoice_next {α : Type} (v : BitVec 2) (x : Except CommandError α) (f : Voice → α → Voice) (s : State) :
    ∃ t, updateVoice v x f s = .next t :=
  withOperand_next _ s fun _ => withOperand_next x s fun _ => ⟨_, rfl⟩

theorem updateFilter_next {α : Type} (x : Except CommandError α) (f : Filter → α → Filter) (s : State) :
    ∃ t, updateFilter x f s = .next t :=
  withOperand_next x s fun _ => ⟨_, rfl⟩

theorem exec_command_next {i : Instr} (h : i.conv? = none) (s : State) : ∃ t, exec i s = .next t := by
  cases i with
  | reset | writeFilter | writeAllVoices | initializeChip => exact ⟨_, rfl⟩
  | writeVoice v => exact withOperand_next (voiceOf v) s fun _ => ⟨_, rfl⟩
  | setvFreq | setvPw | setvAttack | setvDecay | setvSustain | setvRelease | setvShape | setvCflags | setvCflagsAdd
  | setvCflagsRemove =>
    simp only [exec, execSetvFreq, execSetvPw, execSetvAttack, execSetvDecay, execSetvSustain, execSetvRelease,
      execSetvShape, execSetvCflags, execSetvCflagsAdd, execSetvCflagsRemove]
    exact updateVoice_next _ _ _ s
  | setfCutoff | setfRes | setfVol | setfMode | setfModeAdd | setfModeRemove | setfTargets | setfTargetsAdd
  | setfTargetsRemove =>
    simp only [exec, execSetfCutoff, execSetfRes, execSetfVol, execSetfMode, execSetfModeAdd, execSetfModeRemove,
      execSetfTargets, execSetfTargetsAdd, execSetfTargetsRemove]
    exact updateFilter_next _ _ s
  | _ => cases h

/-- The frame rows have two meanings: that of a register frame of their convention, and that of the reset frame. -/
theorem exec_frame_eq {i : Instr} {conv : Conv} (h : i.conv? = some conv) (s : State) :
    (∃ idx ok d, exec i s = runFrame conv idx ok d s) ∨ ∃ index d, exec i s = runResetFrame index d s := by
  cases i with
  | frameShiftedReset index d => exact .inr ⟨index, d, rfl⟩
  | _ => cases h <;> exact .inl ⟨_, _, _, rfl⟩

theorem runFrame_ne_fault (conv : Conv) (idx : Nat) (ok : Bool) (d : Byte) (s : State) (r : Fault) :
    runFrame conv idx ok d s ≠ .fault r := by
  unfold runFrame
  split_ifs <;> simp

theorem runResetFrame_ne_fault (index : BitVec 7) (d : Byte) (s : State) (r : Fault) :
    runResetFrame index d s ≠ .fault r := by
  unfold runResetFrame
  split_ifs <;> simp

/-- No instruction faults: a command answers a next state, a frame row that or a refusal. -/
theorem exec_ne_fault (i : Instr) (s : State) (r : Fault) : exec i s ≠ .fault r := by
  cases h : i.conv? with
  | none =>
    obtain ⟨t, ht⟩ := exec_command_next h s
    simp [ht]
  | some conv =>
    obtain ⟨idx, ok, d, he⟩ | ⟨index, d, he⟩ := exec_frame_eq h s
    · exact he ▸ runFrame_ne_fault conv idx ok d s r
    · exact he ▸ runResetFrame_ne_fault index d s r

/-- A command delivers exactly one result (R26, R182). -/
theorem CommandEffect.results {s t : State} (h : CommandEffect s t) : ∃ r, t.results = s.results ++ [r] := by
  obtain ⟨r, ⟨S, rfl⟩ | ⟨u, es, he, -, -, -, -, rfl⟩⟩ := h
  · exact ⟨r, rfl⟩
  · exact ⟨r, by rw [State.deliver_results, he.results]⟩

/-- Between commands every command word of the program has a next state: an instruction runs, any other word raises. -/
theorem step_command_next {s : State} {w : CommandWord} (hwf : s.cfg.wf = true) (hdue : s.due = none)
    (hphase : s.phase.transient = false) (hw : s.program[s.pc]? = some w) : ∃ t, step s = .next t := by
  have hin := (insideCommand_eq_transient hdue).trans hphase
  have hs := fetch_of_program hdue hw
  cases hd : decodeCommand w with
  | ok i =>
    obtain ⟨t, ht⟩ := exec_command_next (decodeCommand_conv hd) s
    exact ⟨_, by rw [step_of_decodeSlot_ok hwf hin hs hd, ht, advance_command_next]⟩
  | error r => exact ⟨_, step_of_decodeSlot_error hwf hin hs hd⟩

/-- Settles O8: the step has a next state by `step_command_next`, and `step_effect` says what became of it. -/
theorem commandStepsAlwaysComplete : Obligations.CommandStepsAlwaysComplete := by
  intro s w hwf hdue hphase hw
  obtain ⟨t, ht⟩ := step_command_next hwf hdue hphase hw
  obtain ⟨-, ⟨-, -, u, hu, rfl⟩ | ⟨hframe, -⟩⟩ := step_effect ht
  · obtain ⟨r, hr⟩ := hu.results
    exact ⟨_, r, ht, rfl, hr⟩
  · exact absurd hdue hframe

/-! ### Where a step stops (R8, R26, R27, R166) -/

theorem advance_eq_fault_iff {slot : Slot} {o : Host.Outcome State Fault Refusal} {r : Fault} :
    advance slot o = .fault r ↔ o = .fault r := by
  cases slot <;> cases o <;> simp [advance]

theorem undecoded_ne_fault (slot : Slot) (s : State) (r : Fault) : undecoded slot s ≠ .fault r := by
  cases slot <;> simp [undecoded, raise]

/-- The companion of `step_cases` for faults: the only one is the end of the run (R26). -/
theorem step_eq_fault_iff {s : State} {r : Fault} :
    step s = .fault r ↔ s.cfg.wf = true ∧ insideCommand s = false ∧ fetch s = none ∧ r = .programEnd := by
  cases hwf : s.cfg.wf with
  | false => simp [step_of_badConfiguration hwf]
  | true =>
    cases hin : insideCommand s with
    | true => simp [step_of_insideCommand hwf hin]
    | false =>
      cases hs : fetch s with
      | none => simp [step_of_fetch_none hwf hin hs]
      | some slot =>
        cases hd : decodeSlot s.cfg.conv slot with
        | ok i => simp [step_of_decodeSlot_ok hwf hin hs hd, advance_eq_fault_iff, exec_ne_fault]
        | error e => simp [step_of_decodeSlot_error hwf hin hs hd, advance_eq_fault_iff, undecoded_ne_fault]

/-- Between commands a step goes on or ends the run; it never refuses. -/
theorem step_ne_refused_of_between {s : State} (hwf : s.cfg.wf = true) (hdue : s.due = none)
    (hphase : s.phase.transient = false) (r : Refusal) : step s ≠ .refused r := by
  cases hw : s.program[s.pc]? with
  | some w =>
    obtain ⟨t, ht⟩ := step_command_next hwf hdue hphase hw
    simp [ht]
  | none =>
    have hs : fetch s = none := fetch_eq_none_iff.mpr ⟨hdue, List.getElem?_eq_none_iff.mp hw⟩
    simp [step_of_fetch_none hwf ((insideCommand_eq_transient hdue).trans hphase) hs]

theorem step_eq_refused_iff {s : State} (hdue : s.due = none) {r : Refusal} :
    step s = .refused r ↔ (s.cfg.wf = false ∧ r = .badConfiguration) ∨
      (s.cfg.wf = true ∧ s.phase.transient = true ∧ r = .insideCommand) := by
  cases hwf : s.cfg.wf with
  | false => simp [step_of_badConfiguration hwf, @eq_comm _ r]
  | true =>
    cases hphase : s.phase.transient with
    | true => simp [step_of_insideCommand hwf ((insideCommand_eq_transient hdue).trans hphase), @eq_comm _ r]
    | false => simp [step_ne_refused_of_between hwf hdue hphase]

/-- A frame that is due with an address byte the block never sends is refused (R90 (d), R166). -/
theorem step_of_neverSent {s : State} {w : FrameWord} (hwf : s.cfg.wf = true) (hdue : s.due = some w)
    (h : observe s.cfg.conv (frameAddress w) = .neverSent) : step s = .refused .frameNeverSent :=
  step_of_decodeSlot_error hwf (insideCommand_of_due hdue) (fetch_of_due hdue) (decodeFrame_of_neverSent h)

/-- A run stands between commands: `UNINIT` and `IDLE` are its only phases (R27). -/
theorem Inv.transient {s : State} (h : Inv s) : s.phase.transient = false := by
  rw [h.phase]
  split <;> rfl

/-- Settles O9, clause by clause: faults, refusals with no frame due, a frame never sent, and a state of a run. -/
theorem stepStopsOnlyHere : Obligations.StepStopsOnlyHere := by
  intro s
  refine ⟨fun f => ?_, fun hdue _ => step_eq_refused_iff hdue, fun _ => step_of_neverSent,
    fun h => step_ne_refused_of_between h.cfgWf h.due h.transient⟩
  rw [step_eq_fault_iff, fetch_eq_none_iff]
  constructor
  · rintro ⟨hwf, hin, ⟨hdue, hend⟩, rfl⟩
    exact ⟨hwf, hdue, insideCommand_eq_transient hdue ▸ hin, hend, rfl⟩
  · rintro ⟨hwf, hdue, hphase, hend, rfl⟩
    exact ⟨hwf, (insideCommand_eq_transient hdue).trans hphase, ⟨hdue, hend⟩, rfl⟩

end Sys2Proof.Machine

/-! ### Recording (R28, R29, R57, R58)

What a step records: the calls it made, on the trace and in all that is computed from the trace, and its result.
-/

namespace Sys2Proof.Machine

/-- The two ways of a command as one: `S` may be set, some capability calls may follow, one result is delivered. A state
update makes no call, any other command leaves `S` alone. -/
theorem CommandEffect.emits {s t : State} (h : CommandEffect s t) :
    ∃ S u es r, Emits (s.setChipState S) u es ∧ t = u.deliver r := by
  obtain ⟨r, ⟨S, rfl⟩ | ⟨u, es, hu, -, -, -, -, rfl⟩⟩ := h
  · exact ⟨S, _, [], r, Emits.refl _, rfl⟩
  · exact ⟨s.chipState, u, es, r, hu, rfl⟩

/-- A frame row is one capability call and nothing else. -/
theorem FrameEffect.emits {s t : State} (h : FrameEffect s t) : ∃ es, Emits s t es := by
  obtain ⟨a, d, -, -, -, rfl⟩ := h
  exact ⟨_, emits_transmit a d s⟩

/-- Settles O53, by the two kinds of step of `step_effect`: `Emits` says what the calls of each became. -/
theorem traceAndResultsOnlyGrow : Obligations.TraceAndResultsOnlyGrow := by
  intro s t h
  obtain ⟨-, ⟨hdue, -, v, hv, rfl⟩ | ⟨hdue, ht⟩⟩ := step_effect h
  · -- between commands: one result, after the command's calls
    obtain ⟨S, u, es, r, hu, rfl⟩ := hv.emits
    exact ⟨es, [r], hu.trace, congrArg (· ++ [r]) hu.results, (if_pos hdue).symm, hu.chip, hu.cs, hu.rst⟩
  · -- inside a command: the frame's call, and no result
    obtain ⟨es, he⟩ := ht.emits
    exact ⟨es, [], he.trace, by simp [he.results], (if_neg hdue).symm, he.chip, he.cs, he.rst⟩

/-- Settles O51: the image after a step is what the step's events make of the one before, and every event keeps the
canonical form. -/
theorem everyStepKeepsTheImageCanonical : Obligations.EveryStepKeepsTheImageCanonical := by
  intro s t hwf h
  obtain ⟨es, -, -, -, -, hchip, -⟩ := traceAndResultsOnlyGrow s t h
  rw [hchip]
  exact wf_imageAfter s.cfg.conv es hwf

end Sys2Proof.Machine

/-! ### Reaching the image (R56, R60)

What a group write puts into the chip image, byte by byte, and what the commands of one voice do.
-/

namespace Sys2Proof.Machine

/-- Byte `i` of a payload is what its register reads, whatever the image held before. -/
theorem readOver_add {idx i : Nat} {p : List Byte} (hi : i < p.length) (m : List Host.Cell) :
    readOver idx p m (idx + i) = p[i]? := by
  simp [readOver, hi]

/-- After a group is written, its registers read the payload of `S` as it stood (R56, R186, R188). -/
theorem read_sendGroup (g : Group) (s : State) {i : Nat} (hi : i < (payloadOf s.chipState g).length) :
    Memory.read (indexOf g i) (sendGroup g s).chip = (payloadOf s.chipState g)[i]? := by
  rw [(emits_sendGroup g s).chip, read_groupEvents _ _ (base_add_payload_le ..), indexOf, readOver_add hi]

/-- `VSEL` of a voice names that voice (R84 step 5). -/
@[simp] theorem voiceOf_vselOf (ix : VoiceIx) : voiceOf (vselOf ix) = .ok ix := by
  cases ix <;> rfl

/-- `WRITE_VOICE` of one of the three voices writes that group (R186). -/
theorem exec_writeVoice_vselOf (ix : VoiceIx) (s : State) :
    exec (.writeVoice (vselOf ix)) s = finish s (sendGroup (.voice ix) s) := by
  simp [exec, execWriteVoice, withOperand]

/-- `SETV.FREQ` of one of the three voices: every immediate is legal (R110). -/
theorem exec_setvFreq_vselOf (ix : VoiceIx) (f : U16) (s : State) :
    exec (.setvFreq (vselOf ix) f) s =
      complete (s.setChipState (s.chipState.setVoice ix { s.chipState.voice ix with freq := f })) := by
  simp [exec, execSetvFreq, updateVoice, freqOperand, withOperand]

/-- After a voice is written, its first two registers hold its frequency, the low byte first (R31, R32, R143). -/
theorem read_freq_sendGroup {ix : VoiceIx} {s : State} {f : U16} (hf : (s.chipState.voice ix).freq = f) :
    Memory.read (7 * voiceNumber ix) (sendGroup (.voice ix) s).chip = some (bits f 0 8) ∧
    Memory.read (7 * voiceNumber ix + 1) (sendGroup (.voice ix) s).chip = some (bits f 8 8) := by
  have hread {i : Nat} (hi : i < voiceLen) := read_sendGroup (.voice ix) s hi
  rw [← hf, Nat.mul_comm]
  exact ⟨hread (i := 0) (by decide), hread (i := 1) (by decide)⟩

/-- Settles O46: the update completes with only `S` set (`exec_setvFreq_vselOf`), and the write after it puts the new
frequency into the voice's first two registers (`read_freq_sendGroup`). -/
theorem updateReachesTheImageOnlyByWriting : Obligations.UpdateReachesTheImageOnlyByWriting := by
  intro s ix f
  refine ⟨_, _, exec_setvFreq_vselOf ix f s, rfl, rfl, exec_writeVoice_vselOf ix _, ?_⟩
  simp only [State.deliver_chip]
  exact read_freq_sendGroup (by simp)

end Sys2Proof.Machine

/-! ### Frame rows (R50, R55, R90)

Every frame row answers in one way, by the frame it encodes to: a register row and the reset row differ in the phase of
their command and in what makes the frame the block's own.
-/

namespace Sys2Proof.Machine

theorem atFrame_iff {p : Phase} {f : FrameWord} {s : State} :
    atFrame p f s = true ↔ s.phase = p ∧ s.cs = .driven .low ∧ s.due = some f := by
  simp [atFrame, and_assoc]

@[simp] theorem frameAddress_append (a d : Byte) : frameAddress (a ++ d) = a := by
  exact BitVec.extractLsb'_append_eq_left

@[simp] theorem frameData_append (a d : Byte) : frameData (a ++ d) = d := by
  exact BitVec.extractLsb'_append_eq_right

/-- The answer of a frame row of convention `conv` that is the frame `f`, sent in phase `p`; `own` says whether the block
sends it at all. -/
def frameAnswer (conv : Conv) (own : Bool) (p : Phase) (f : FrameWord) (s : State) : Host.Outcome State Fault Refusal :=
  if s.cfg.conv ≠ conv then .refused .conventionMismatch
  else if own = false then .refused .frameNeverSent
  else if atFrame p f s then .next (transmit (frameAddress f) (frameData f) s)
  else .refused .frameOutsideCommand

theorem runFrame_eq_frameAnswer (conv : Conv) (idx : Nat) (ok : Bool) (d : Byte) (s : State) :
    runFrame conv idx ok d s = frameAnswer conv ok .transmitting (wireAddr conv idx ++ d) s := by
  simp [runFrame, frameAnswer]

theorem runResetFrame_eq_frameAnswer (index : BitVec 7) (d : Byte) (s : State) :
    runResetFrame index d s =
      frameAnswer .shifted (ownResetFrame index d s.cfg) .resetting (resetAddr index.toNat ++ d) s := by
  simp [runResetFrame, frameAnswer]

/-- What a frame row does, said once for all of them. -/
theorem exec_frame {i : Instr} {conv : Conv} {f : FrameWord} (hi : i.conv? = some conv) (hf : encode i = .frame f)
    (s : State) : exec i s = frameAnswer conv (ownFrame i s.cfg) (framePhase i) f s := by
  cases i with
  | frameShiftedReset index d =>
    cases hi
    cases hf
    exact runResetFrame_eq_frameAnswer index d s
  | _ => cases hi <;> cases hf <;> exact runFrame_eq_frameAnswer ..

/-- Settles O58: the four answers of `frameAnswer`, in the order in which it asks. -/
theorem framesRunOnlyWhereTheBlockSendsThem : Obligations.FramesRunOnlyWhereTheBlockSendsThem := by
  intro i conv f s hi hf
  simp only [exec_frame hi hf, ← atFrame_iff]
  unfold frameAnswer
  split_ifs
  · rfl
  · rfl
  · exact ⟨_, rfl⟩
  · rfl

end Sys2Proof.Machine

/-! ### Command words by their fields (R80)

A command word is its five fields, and a word agrees with a row on the row's mask when the fields under the mask are the
row's. -/

namespace Sys2Proof

@[simp] theorem immField_commandWord (op : BitVec 4) (v : BitVec 2) (k : BitVec 5) (imm : U16) :
    immField (commandWord op v k imm) = imm :=
  BitVec.extractLsb'_append_eq_right

/-- A field above `IMM` is the field of what stands above it. -/
theorem bits_commandWord (op : BitVec 4) (v : BitVec 2) (k : BitVec 5) (imm : U16) {lo width : Nat} (h : 16 ≤ lo) :
    bits (commandWord op v k imm) lo width = bits (op ++ v ++ k ++ (0 : BitVec 5)) (lo - 16) width :=
  BitVec.extractLsb'_append_eq_of_le h

@[simp] theorem zeroField_commandWord (op : BitVec 4) (v : BitVec 2) (k : BitVec 5) (imm : U16) :
    zeroField (commandWord op v k imm) = 0 :=
  (bits_commandWord op v k imm (by decide)).trans BitVec.extractLsb'_append_eq_right

@[simp] theorem fselField_commandWord (op : BitVec 4) (v : BitVec 2) (k : BitVec 5) (imm : U16) :
    fselField (commandWord op v k imm) = k :=
  calc fselField (commandWord op v k imm)
    _ = bits (op ++ v ++ k ++ (0 : BitVec 5)) 5 5 := bits_commandWord op v k imm (by decide)
    _ = bits (op ++ v ++ k) 0 5 := BitVec.extractLsb'_append_eq_of_le (by decide)
    _ = k := BitVec.extractLsb'_append_eq_right

@[simp] theorem vselField_commandWord (op : BitVec 4) (v : BitVec 2) (k : BitVec 5) (imm : U16) :
    vselField (commandWord op v k imm) = v :=
  calc vselField (commandWord op v k imm)
    _ = bits (op ++ v ++ k ++ (0 : BitVec 5)) 10 2 := bits_commandWord op v k imm (by decide)
    _ = bits (op ++ v ++ k) 5 2 := BitVec.extractLsb'_append_eq_of_le (by decide)
    _ = bits (op ++ v) 0 2 := BitVec.extractLsb'_append_eq_of_le (by decide)
    _ = v := BitVec.extractLsb'_append_eq_right

@[simp] theorem opField_commandWord (op : BitVec 4) (v : BitVec 2) (k : BitVec 5) (imm : U16) :
    opField (commandWord op v k imm) = op :=
  calc opField (commandWord op v k imm)
    _ = bits (op ++ v ++ k ++ (0 : BitVec 5)) 12 4 := bits_commandWord op v k imm (by decide)
    _ = bits (op ++ v ++ k) 7 4 := BitVec.extractLsb'_append_eq_of_le (by decide)
    _ = bits (op ++ v) 2 4 := BitVec.extractLsb'_append_eq_of_le (by decide)
    _ = op := BitVec.extractLsb'_append_eq_left

/-- The five fields cover the word. -/
theorem fields_append (w : CommandWord) :
    opField w ++ vselField w ++ fselField w ++ zeroField w ++ immField w = w := by
  simp only [opField, vselField, fselField, zeroField, immField]
  repeat rw [BitVec.extractLsb'_append_extractLsb'_eq_extractLsb' (by rfl)]
  exact BitVec.extractLsb'_eq_self

/-- A word with `ZERO` = 0 is the command word of its other fields. -/
theorem commandWord_fields {w : CommandWord} (hzero : zeroField w = 0) :
    commandWord (opField w) (vselField w) (fselField w) (immField w) = w := by
  rw [commandWord, ← hzero, fields_append]

theorem eq_commandWord_iff {w : CommandWord} {op : BitVec 4} {v : BitVec 2} {k : BitVec 5} {imm : U16} :
    w = commandWord op v k imm ↔
      opField w = op ∧ vselField w = v ∧ fselField w = k ∧ zeroField w = 0 ∧ immField w = imm := by
  constructor
  · rintro rfl
    simp
  · rintro ⟨rfl, rfl, rfl, hzero, rfl⟩
    exact (commandWord_fields hzero).symm

/-- The masks of R85 compare `OP`, `FSEL` and `ZERO` whole; they differ in what they leave free of `VSEL` and `IMM`. -/
theorem and_mask_eq_commandWord_iff {w m : CommandWord} {op : BitVec 4} {v : BitVec 2} {k : BitVec 5} {imm : U16}
    (hop : opField m = BitVec.allOnes 4) (hfsel : fselField m = BitVec.allOnes 5)
    (hzero : zeroField m = BitVec.allOnes 5) :
    w &&& m = commandWord op v k imm ↔
      opField w = op ∧ vselField w &&& vselField m = v ∧ fselField w = k ∧ zeroField w = 0 ∧
        immField w &&& immField m = imm := by
  have hand : ∀ lo width, bits (w &&& m) lo width = bits w lo width &&& bits m lo width :=
    fun _ _ => BitVec.extractLsb'_and
  simp only [opField, fselField, zeroField] at hop hfsel hzero
  simp only [eq_commandWord_iff, opField, vselField, fselField, zeroField, immField, hand, hop, hfsel, hzero,
    BitVec.and_allOnes]

/-! ### The tables of rows by number (R78, R82, R83) -/

/-- A voice field's place in the table is its `FSEL` (R82). -/
theorem encode_voiceFields (v : BitVec 2) (imm : U16) :
    voiceFields.map (fun f => encode (f v imm)) = (List.range 10).map fun k => setvWord (BitVec.ofNat 5 k) v imm := rfl

/-- A filter field's place in the table is its `FSEL` (R83). -/
theorem encode_filterFields (imm : U16) :
    filterFields.map (fun f => encode (f imm)) = (List.range 9).map fun k => setfWord (BitVec.ofNat 5 k) imm := rfl

/-- A register row's place in the table of its convention is its logical index (R78). -/
theorem encode_linearFrames (d : Byte) :
    linearFrames.map (fun f => encode (f d)) = (List.range 25).map fun k => frameOf .linear k d := rfl

theorem encode_shiftedFrames (d : Byte) :
    shiftedFrames.map (fun f => encode (f d)) = (List.range 25).map fun k => frameOf .shifted k d := rfl

/-- Two tables of one content, read at one place. -/
theorem eq_of_map_eq_map_range {α β : Type} {l : List α} {f : α → β} {g : Nat → β} {n k : Nat} {a : α}
    (h : l.map f = (List.range n).map g) (ha : l[k]? = some a) : k < n ∧ f a = g k := by
  have hk : ((List.range n).map g)[k]? = some (f a) := by rw [← h, List.getElem?_map, ha]; rfl
  obtain ⟨j, hj, hg⟩ := Option.map_eq_some_iff.mp (List.getElem?_map.symm.trans hk)
  obtain ⟨hlt, rfl⟩ := List.getElem?_eq_some_iff.mp hj
  exact ⟨by simpa using hlt, by simpa using hg.symm⟩

theorem encode_voiceField {k : BitVec 5} {f : BitVec 2 → U16 → Instr} (hf : voiceFields[k.toNat]? = some f)
    (v : BitVec 2) (imm : U16) : encode (f v imm) = setvWord k v imm := by
  simpa using (eq_of_map_eq_map_range (encode_voiceFields v imm) hf).2

theorem encode_filterField {k : BitVec 5} {f : U16 → Instr} (hf : filterFields[k.toNat]? = some f)
    (imm : U16) : encode (f imm) = setfWord k imm := by
  simpa using (eq_of_map_eq_map_range (encode_filterFields imm) hf).2

theorem encode_registerFrame {conv : Conv} {k : Nat} {f : Byte → Instr} (hf : registerFrame conv k = some f)
    (d : Byte) : encode (f d) = frameOf conv k d := by
  cases conv with
  | linear => exact (eq_of_map_eq_map_range (encode_linearFrames d) hf).2
  | shifted => exact (eq_of_map_eq_map_range (encode_shiftedFrames d) hf).2

/-! ### The decoder of command words (R84) -/

theorem decodeCommand_setvWord {k : BitVec 5} {f : BitVec 2 → U16 → Instr} (hf : voiceFields[k.toNat]? = some f)
    (v : BitVec 2) (imm : U16) : decodeCommand (commandWord 6 v k imm) = .ok (f v imm) := by
  simp [decodeCommand, decodeSetv, hf]

theorem decodeCommand_setfWord {k : BitVec 5} {f : U16 → Instr} (hf : filterFields[k.toNat]? = some f)
    (imm : U16) : decodeCommand (commandWord 7 0 k imm) = .ok (f imm) := by
  simp [decodeCommand, decodeSetf, hf]

theorem decodeCommand_writeVoiceWord (v : BitVec 2) : decodeCommand (commandWord 2 v 0 0) = .ok (.writeVoice v) := by
  simp [decodeCommand, decodeWriteVoice]

theorem decodePlain_ok {i j : Instr} {w : CommandWord} (h : decodePlain i w = .ok j) :
    vselField w = 0 ∧ fselField w = 0 ∧ immField w = 0 ∧ j = i := by
  unfold decodePlain at h
  split_ifs at h with hfields
  obtain ⟨hv, hk, himm⟩ := hfields
  cases h
  exact ⟨hv, hk, himm, rfl⟩

theorem decodeWriteVoice_ok {j : Instr} {w : CommandWord} (h : decodeWriteVoice w = .ok j) :
    fselField w = 0 ∧ immField w = 0 ∧ j = .writeVoice (vselField w) := by
  unfold decodeWriteVoice at h
  split_ifs at h with hfields
  obtain ⟨hk, himm⟩ := hfields
  cases h
  exact ⟨hk, himm, rfl⟩

theorem decodeSetv_ok {j : Instr} {w : CommandWord} (h : decodeSetv w = .ok j) :
    ∃ f, voiceFields[(fselField w).toNat]? = some f ∧ j = f (vselField w) (immField w) := by
  unfold decodeSetv at h
  split at h
  · cases h
    exact ⟨_, by assumption, rfl⟩
  · cases h

theorem decodeSetf_ok {j : Instr} {w : CommandWord} (h : decodeSetf w = .ok j) :
    ∃ f, filterFields[(fselField w).toNat]? = some f ∧ vselField w = 0 ∧ j = f (immField w) := by
  unfold decodeSetf at h
  split at h
  · split at h
    · cases h
      exact ⟨_, by assumption, by assumption, rfl⟩
    · cases h
  · cases h

/-- Everything the decoder accepts, by `OP` (R81, R84). -/
theorem decodeCommand_ok {w : CommandWord} {i : Instr} (h : decodeCommand w = .ok i) :
    zeroField w = 0 ∧
      ((opField w = 1 ∧ decodePlain .reset w = .ok i) ∨ (opField w = 2 ∧ decodeWriteVoice w = .ok i) ∨
       (opField w = 3 ∧ decodePlain .writeFilter w = .ok i) ∨ (opField w = 4 ∧ decodePlain .writeAllVoices w = .ok i) ∨
       (opField w = 5 ∧ decodePlain .initializeChip w = .ok i) ∨ (opField w = 6 ∧ decodeSetv w = .ok i) ∨
       (opField w = 7 ∧ decodeSetf w = .ok i)) := by
  have hop {n : Nat} (hn : (opField w).toNat = n) : opField w = BitVec.ofNat 4 n := by
    rw [← hn, BitVec.ofNat_toNat, BitVec.setWidth_eq]
  unfold decodeCommand at h
  split at h
  · cases h
  · rename_i hzero
    refine ⟨not_not.mp hzero, ?_⟩
    split at h
    case h_8 => cases h
    all_goals
      rename_i hn
      simp [hop hn, h]

theorem encode_of_decodeCommand {w : CommandWord} {i : Instr} (h : decodeCommand w = .ok i) :
    encode i = .command w := by
  obtain ⟨hzero, hrow⟩ := decodeCommand_ok h
  have hw := commandWord_fields hzero
  have hplain {j : Instr} (hj : encode j = .command (commandWord (opField w) 0 0 0))
      (hd : decodePlain j w = .ok i) : encode i = .command w := by
    obtain ⟨hv, hk, himm, rfl⟩ := decodePlain_ok hd
    rw [hj, ← hw, hv, hk, himm]
    simp
  rcases hrow with ⟨hop, hd⟩ | ⟨hop, hd⟩ | ⟨hop, hd⟩ | ⟨hop, hd⟩ | ⟨hop, hd⟩ | ⟨hop, hd⟩ | ⟨hop, hd⟩
  · exact hplain (by rw [hop]; rfl) hd
  · obtain ⟨hk, himm, rfl⟩ := decodeWriteVoice_ok hd
    rw [← hw, hop, hk, himm]
    simp [encode]
  · exact hplain (by rw [hop]; rfl) hd
  · exact hplain (by rw [hop]; rfl) hd
  · exact hplain (by rw [hop]; rfl) hd
  · obtain ⟨f, hf, rfl⟩ := decodeSetv_ok hd
    rw [encode_voiceField hf, setvWord, ← hop, hw]
  · obtain ⟨f, hf, hv, rfl⟩ := decodeSetf_ok hd
    rw [encode_filterField hf, setfWord, ← hop, ← hv, hw]

/-- The conditions of R84 steps 1 to 4, on the fields of the word. -/
def AcceptedFields (w : CommandWord) : Prop :=
  zeroField w = 0 ∧
    (((opField w = 1 ∨ opField w = 3 ∨ opField w = 4 ∨ opField w = 5) ∧
        vselField w = 0 ∧ fselField w = 0 ∧ immField w = 0) ∨
     (opField w = 2 ∧ fselField w = 0 ∧ immField w = 0) ∨
     (opField w = 6 ∧ (fselField w).toNat < 10) ∨
     (opField w = 7 ∧ (fselField w).toNat < 9 ∧ vselField w = 0))

theorem acceptedFields_of_decodeCommand {w : CommandWord} {i : Instr} (h : decodeCommand w = .ok i) :
    AcceptedFields w := by
  obtain ⟨hzero, hrow⟩ := decodeCommand_ok h
  refine ⟨hzero, ?_⟩
  have hplain {j : Instr} (hd : decodePlain j w = .ok i) : vselField w = 0 ∧ fselField w = 0 ∧ immField w = 0 := by
    obtain ⟨hv, hk, himm, -⟩ := decodePlain_ok hd
    exact ⟨hv, hk, himm⟩
  rcases hrow with ⟨hop, hd⟩ | ⟨hop, hd⟩ | ⟨hop, hd⟩ | ⟨hop, hd⟩ | ⟨hop, hd⟩ | ⟨hop, hd⟩ | ⟨hop, hd⟩
  · exact .inl ⟨.inl hop, hplain hd⟩
  · obtain ⟨hk, himm, -⟩ := decodeWriteVoice_ok hd
    exact .inr (.inl ⟨hop, hk, himm⟩)
  · exact .inl ⟨.inr (.inl hop), hplain hd⟩
  · exact .inl ⟨.inr (.inr (.inl hop)), hplain hd⟩
  · exact .inl ⟨.inr (.inr (.inr hop)), hplain hd⟩
  · obtain ⟨f, hf, -⟩ := decodeSetv_ok hd
    exact .inr (.inr (.inl ⟨hop, (List.getElem?_eq_some_iff.mp hf).1⟩))
  · obtain ⟨f, hf, hv, -⟩ := decodeSetf_ok hd
    exact .inr (.inr (.inr ⟨hop, (List.getElem?_eq_some_iff.mp hf).1, hv⟩))

theorem decodeCommand_of_acceptedFields {w : CommandWord} (h : AcceptedFields w) : ∃ i, decodeCommand w = .ok i := by
  obtain ⟨hzero, ⟨hop, hv, hk, himm⟩ | ⟨hop, hk, himm⟩ | ⟨hop, hk⟩ | ⟨hop, hk, hv⟩⟩ := h
  · rw [← commandWord_fields hzero, hv, hk, himm]
    rcases hop with hop | hop | hop | hop <;> exact ⟨_, by rw [hop]; rfl⟩
  · rw [← commandWord_fields hzero, hop, hk, himm]
    exact ⟨_, decodeCommand_writeVoiceWord _⟩
  · rw [← commandWord_fields hzero, hop]
    exact ⟨_, decodeCommand_setvWord (List.getElem?_eq_getElem hk) _ _⟩
  · rw [← commandWord_fields hzero, hop, hv]
    exact ⟨_, decodeCommand_setfWord (List.getElem?_eq_getElem hk) _⟩

/-- The decoder accepts the words whose fields steps 1 to 4 of R84 accept. -/
theorem decodeCommand_ok_iff {w : CommandWord} : (∃ i, decodeCommand w = .ok i) ↔ AcceptedFields w :=
  ⟨fun ⟨_, h⟩ => acceptedFields_of_decodeCommand h, decodeCommand_of_acceptedFields⟩

theorem decodeCommand_error_iff {w : CommandWord} : (∃ r, decodeCommand w = .error r) ↔ ¬ AcceptedFields w := by
  rw [← decodeCommand_ok_iff]
  cases decodeCommand w <;> simp

/-- The `OP` map (R81): no command, or one of the seven. -/
theorem op_cases (op : BitVec 4) :
    (op = 0 ∨ 8 ≤ op.toNat) ∨ op = 1 ∨ op = 2 ∨ op = 3 ∨ op = 4 ∨ op = 5 ∨ op = 6 ∨ op = 7 := by
  revert op
  decide

/-- Settles O5: what `AcceptedFields` does not allow, for each `OP`. -/
theorem illegalWordsAreStepsOneToFour : Obligations.IllegalWordsAreStepsOneToFour := by
  intro w
  rw [decodeCommand_error_iff, AcceptedFields]
  by_cases hzero : zeroField w = 0
  · rcases op_cases (opField w) with (hop | hop) | hop | hop | hop | hop | hop | hop | hop
    case inl.inr =>
      have hne {n : BitVec 4} (hn : n.toNat < 8) : opField w ≠ n := by
        rintro rfl
        omega
      simp [hop, hne]
    all_goals simp [hop, hzero, imp_iff_not_or]
  · exact iff_of_true (fun h => hzero h.1) (.inl (.inr (.inr hzero)))

/-! ### The match and mask columns (R85) -/

/-- A word that fits one of the `n` rows of a table of field commands, which number their rows by `FSEL` from the match
value `first` on: the mask leaves `IMM` free, and of `VSEL` it compares what the match value gives. -/
theorem fits_fieldRows_iff {w m : CommandWord} {op : BitVec 4} {v : BitVec 2} {first n : Nat}
    (hrows : ∀ k < n, BitVec.ofNat 32 (first + k * 0x00200000) = commandWord op v (BitVec.ofNat 5 k) 0)
    (hop : opField m = BitVec.allOnes 4) (hfsel : fselField m = BitVec.allOnes 5)
    (hzero : zeroField m = BitVec.allOnes 5) (himm : immField m = 0) :
    (∃ k, k < n ∧ w &&& m = BitVec.ofNat 32 (first + k * 0x00200000)) ↔
      zeroField w = 0 ∧ opField w = op ∧ (fselField w).toNat < n ∧ vselField w &&& vselField m = v := by
  constructor
  · rintro ⟨k, hk, hw⟩
    rw [hrows k hk, and_mask_eq_commandWord_iff hop hfsel hzero] at hw
    obtain ⟨hwop, hwv, hwk, hwzero, -⟩ := hw
    have hle : (fselField w).toNat ≤ k := by
      rw [hwk, BitVec.toNat_ofNat]
      exact Nat.mod_le ..
    exact ⟨hwzero, hwop, hle.trans_lt hk, hwv⟩
  · rintro ⟨hwzero, hwop, hk, hwv⟩
    refine ⟨_, hk, ?_⟩
    rw [hrows _ hk, and_mask_eq_commandWord_iff hop hfsel hzero]
    exact ⟨hwop, hwv, by simp, hwzero, by simp [himm]⟩

/-- The ten voice field rows (R82). -/
theorem fits_setvRows_iff {w : CommandWord} :
    (∃ k, k < 10 ∧ w &&& 0xF3FF0000 = BitVec.ofNat 32 (0x60000000 + k * 0x00200000)) ↔
      zeroField w = 0 ∧ opField w = 6 ∧ (fselField w).toNat < 10 := by
  have hvsel : vselField w &&& vselField 0xF3FF0000 = 0 := BitVec.and_zero
  rw [fits_fieldRows_iff (op := 6) (v := 0) (by decide) rfl rfl rfl rfl, hvsel]
  simp

/-- The nine filter field rows (R83): `VSEL` must be 0. -/
theorem fits_setfRows_iff {w : CommandWord} :
    (∃ k, k < 9 ∧ w &&& 0xFFFF0000 = BitVec.ofNat 32 (0x70000000 + k * 0x00200000)) ↔
      zeroField w = 0 ∧ opField w = 7 ∧ (fselField w).toNat < 9 ∧ vselField w = 0 := by
  have hvsel : vselField w &&& vselField 0xFFFF0000 = vselField w := BitVec.and_allOnes
  rw [fits_fieldRows_iff (op := 7) (v := 0) (by decide) rfl rfl rfl rfl, hvsel]

/-- The row of `WRITE_VOICE` leaves `VSEL` free (R84 step 3). -/
theorem fits_writeVoice_iff {w : CommandWord} :
    w &&& 0xF3FFFFFF = 0x20000000 ↔ zeroField w = 0 ∧ opField w = 2 ∧ fselField w = 0 ∧ immField w = 0 := by
  have hvsel : vselField w &&& vselField 0xF3FFFFFF = 0 := BitVec.and_zero
  have himm : immField w &&& immField 0xF3FFFFFF = immField w := BitVec.and_allOnes
  rw [show (0x20000000 : CommandWord) = commandWord 2 0 0 0 from rfl, and_mask_eq_commandWord_iff rfl rfl rfl, hvsel,
    himm]
  tauto

/-- The rows without operands leave no bit free (R84 step 2). -/
theorem eq_plainWord_iff {w : CommandWord} {op : BitVec 4} :
    w = commandWord op 0 0 0 ↔
      zeroField w = 0 ∧ opField w = op ∧ vselField w = 0 ∧ fselField w = 0 ∧ immField w = 0 := by
  rw [eq_commandWord_iff]
  tauto

/-- Settles O4: the rows of the table say of the fields of a word what `AcceptedFields` says. -/
theorem commandWordsAreTheTables : Obligations.CommandWordsAreTheTables := by
  intro w
  have hplain : (w = 0x10000000 ∨ w = 0x30000000 ∨ w = 0x40000000 ∨ w = 0x50000000) ↔
      zeroField w = 0 ∧ (opField w = 1 ∨ opField w = 3 ∨ opField w = 4 ∨ opField w = 5) ∧
        vselField w = 0 ∧ fselField w = 0 ∧ immField w = 0 := by
    simp only [and_or_left, or_and_right, ← eq_plainWord_iff]
    rfl
  rw [decodeCommand_ok_iff, AcceptedFields, fits_writeVoice_iff, fits_setvRows_iff, fits_setfRows_iff]
  simp only [and_or_left, ← hplain, or_assoc]

/-- Settles O1: nine closed words, evaluated. -/
theorem sampleWordsDecode : Obligations.SampleWordsDecode := by
  unfold Obligations.SampleWordsDecode
  decide

/-! ### Register frames (R75 to R78, R166) -/

/-- A frame is its address byte and its data byte. -/
theorem frame_append (w : FrameWord) : frameAddress w ++ frameData w = w :=
  BitVec.extractLsb'_append_extractLsb'

/-- The reset frame's address byte: the open bits, then bit 0 set (R77, R164). -/
theorem resetAddr_eq_append (index : BitVec 7) : Machine.resetAddr index.toNat = index ++ 1#1 := by
  have hlt : index.toNat <<< 1 < 2 ^ 8 := by rw [Nat.shiftLeft_eq]; omega
  apply BitVec.eq_of_toNat_eq
  rw [Machine.resetAddr, BitVec.toNat_or, BitVec.toNat_ofNat, Nat.mod_eq_of_lt hlt]
  exact (BitVec.toNat_append index 1#1).symm

/-- Only `SHIFTED` has a reset signal, and it is bit 0 of the address byte (R166). -/
theorem observe_resetSignal {conv : Conv} {a : Byte} (h : Machine.observe conv a = .resetSignal) :
    conv = .shifted ∧ a.getLsbD 0 = true := by
  cases conv with
  | linear => exact absurd h (Machine.observe_linear_ne_reset a)
  | shifted =>
    simp only [Machine.observe] at h
    split_ifs at h with hbit
    exact ⟨rfl, hbit⟩

/-- A byte the observer takes for the reset signal is the reset address of its bits 7:1. -/
theorem resetAddr_of_observe {conv : Conv} {a : Byte} (h : Machine.observe conv a = .resetSignal) :
    Machine.resetAddr (bits a 1 7).toNat = a := by
  have hbit : a.extractLsb' 0 1 = 1#1 := by
    ext j hj
    obtain rfl : j = 0 := by omega
    simpa using (observe_resetSignal h).2
  rw [resetAddr_eq_append, ← hbit]
  exact BitVec.extractLsb'_append_extractLsb'

/-- A byte the observer takes for register `k` is the wire address of `k`: the inverse of `observe_wireAddr`. -/
theorem wireAddr_of_observe {conv : Conv} {a : Byte} {k : Nat} (h : Machine.observe conv a = .register k) :
    Machine.wireAddr conv k = a := by
  cases conv with
  | linear =>
    simp only [Machine.observe] at h
    split_ifs at h
    cases h
    simp [Machine.wireAddr]
  | shifted =>
    simp only [Machine.observe] at h
    split_ifs at h with hbit
    cases h
    have heven : a.toNat % 2 = 0 := by simpa [BitVec.getLsbD, Nat.testBit_zero] using hbit
    have hdouble : (a.toNat >>> 1) <<< 1 = a.toNat := by
      rw [Nat.shiftLeft_eq, Nat.shiftRight_eq_div_pow]
      omega
    rw [Machine.wireAddr, hdouble, BitVec.ofNat_toNat, BitVec.setWidth_eq]

theorem registerFrame_lt {conv : Conv} {k : Nat} {f : Byte → Instr} (hf : registerFrame conv k = some f) :
    k < nRegs := by
  cases conv with
  | linear => exact (eq_of_map_eq_map_range (encode_linearFrames 0) hf).1
  | shifted => exact (eq_of_map_eq_map_range (encode_shiftedFrames 0) hf).1

theorem decodeFrame_wireAddr {conv : Conv} {k : Nat} {f : Byte → Instr} (hf : registerFrame conv k = some f)
    (d : Byte) : decodeFrame conv (Machine.wireAddr conv k ++ d) = .ok (f d) := by
  simp [decodeFrame, Machine.observe_wireAddr conv (registerFrame_lt hf), hf]

theorem bits_resetAddr (index : BitVec 7) : bits (Machine.resetAddr index.toNat) 1 7 = index := by
  rw [resetAddr_eq_append]
  exact BitVec.extractLsb'_append_eq_left

theorem decodeFrame_resetAddr (index : BitVec 7) (d : Byte) :
    decodeFrame .shifted (Machine.resetAddr index.toNat ++ d) = .ok (.frameShiftedReset index d) := by
  simp [decodeFrame, Machine.observe_resetAddr, bits_resetAddr]

theorem encode_of_decodeFrame {conv : Conv} {w : FrameWord} {i : Instr} (h : decodeFrame conv w = .ok i) :
    encode i = .frame w := by
  unfold decodeFrame at h
  split at h
  · rename_i ho
    cases h
    rw [encode, resetAddr_of_observe ho, frame_append]
  · cases h
  · rename_i k ho
    split at h
    · rename_i f hf
      cases h
      rw [encode_registerFrame hf, frameOf, wireAddr_of_observe ho, frame_append]
    · cases h

/-! ### The two round trips -/

/-- Settles O2, row by row: a field row by its `FSEL`, a register row by its index, each read in its table. -/
theorem decodeOfEncode : Obligations.DecodeOfEncode := by
  intro conv i hconv
  cases i with
  | reset | writeFilter | writeAllVoices | initializeChip => rfl
  | writeVoice v => exact decodeCommand_writeVoiceWord v
  | setvFreq v imm | setvPw v imm | setvAttack v imm | setvDecay v imm | setvSustain v imm | setvRelease v imm
  | setvShape v imm | setvCflags v imm | setvCflagsAdd v imm | setvCflagsRemove v imm =>
    exact decodeCommand_setvWord rfl v imm
  | setfCutoff imm | setfRes imm | setfVol imm | setfMode imm | setfModeAdd imm | setfModeRemove imm | setfTargets imm
  | setfTargetsAdd imm | setfTargetsRemove imm => exact decodeCommand_setfWord rfl imm
  | frameShiftedReset index d =>
    obtain hconv | hconv := hconv <;> cases hconv
    exact decodeFrame_resetAddr index d
  | _ =>
    obtain hconv | hconv := hconv <;> cases hconv
    exact decodeFrame_wireAddr rfl _

/-- Settles O3: the decoder's answers are read back by `encode_of_decodeCommand` and `encode_of_decodeFrame`. -/
theorem encodeOfDecode : Obligations.EncodeOfDecode := by
  intro conv slot i h
  cases slot with
  | command w => exact ⟨encode_of_decodeCommand h, .inl (Machine.decodeCommand_conv h)⟩
  | frame w => exact ⟨encode_of_decodeFrame h, .inr (Machine.decodeFrame_conv h)⟩

end Sys2Proof

/-! ### The state after a command, and the calls it made (R181, R227) -/

namespace Sys2Proof.Machine

/-- `State.afterCalls` is all there is to say of a command that made the calls `es`. -/
theorem finish_eq_afterCalls {s u : State} {es : List Event} (he : Emits s u es) (hphase : u.phase = .idle)
    (hdue : u.due = none) : finish s u = .next (s.afterCalls es) := by
  have hresult : transportResult s u = callResult s es := by
    simp [transportResult, callResult, he.trace]
  obtain ⟨hcfg, hprogram, hpc, hchipState, hresults, htrace, hchip, hcs, hrst⟩ := he
  rw [finish, hresult]
  cases u
  simp_all [State.deliver, State.afterCalls]

theorem exec_writeVoice_eq_afterCalls (ix : VoiceIx) (s : State) :
    exec (.writeVoice (vselOf ix)) s =
      .next (s.afterCalls (groupEvents s.cfg (.voice ix) (payloadOf s.chipState (.voice ix)))) :=
  (exec_writeVoice_vselOf ix s).trans (finish_eq_afterCalls (emits_sendGroup _ s) rfl rfl)

theorem exec_writeFilter_eq_afterCalls (s : State) :
    exec .writeFilter s = .next (s.afterCalls (groupEvents s.cfg .filter (payloadOf s.chipState .filter))) :=
  finish_eq_afterCalls (emits_sendGroup _ s) rfl rfl

theorem exec_writeAllVoices_eq_afterCalls (s : State) :
    exec .writeAllVoices s = .next (s.afterCalls (voicesEvents s.cfg s.chipState)) :=
  finish_eq_afterCalls (emits_sendVoices s) rfl rfl

theorem exec_initializeChip_eq_afterCalls (s : State) :
    exec .initializeChip s = .next (s.afterCalls (initializeEvents s.cfg s.chipState)) :=
  finish_eq_afterCalls (emits_initialize s) rfl rfl

theorem exec_reset_eq_afterCalls (s : State) : exec .reset s = .next (s.afterCalls (resetEvents s.cfg)) :=
  finish_eq_afterCalls (emits_resetChip (s.setPhase .resetting)).ofSetPhase.endCommand rfl rfl

@[simp] theorem State.afterCalls_cfg (s : State) (es : List Event) : (s.afterCalls es).cfg = s.cfg := rfl

@[simp] theorem State.afterCalls_chipState (s : State) (es : List Event) :
    (s.afterCalls es).chipState = s.chipState := rfl

theorem runAll_cons_of_next {i : Instr} {s t : State} (h : exec i s = .next t) (is : List Instr) :
    runAll (i :: is) s = runAll is t := by
  simp [runAll, h]

/-- The calls of two commands, one after the other, leave what their calls at one go leave, but for the results. -/
theorem State.afterCalls_append (s : State) (es fs : List Event) :
    s.afterCalls (es ++ fs) = { (s.afterCalls es).afterCalls fs with results := (s.afterCalls (es ++ fs)).results } := by
  simp [State.afterCalls, imageAfter_append, csAfter_append, rstAfter_append]

/-- The same of three. -/
theorem State.afterCalls_append_append (s : State) (es fs gs : List Event) :
    s.afterCalls (es ++ fs ++ gs) =
      { ((s.afterCalls es).afterCalls fs).afterCalls gs with results := (s.afterCalls (es ++ fs ++ gs)).results } := by
  simp [State.afterCalls, imageAfter_append, csAfter_append, rstAfter_append]

theorem runAll_writeVoices (s : State) :
    runAll [.writeVoice 0, .writeVoice 1, .writeVoice 2] s =
      some (((s.afterCalls (groupEvents s.cfg (.voice .v0) (encVoice s.chipState.v0))).afterCalls
        (groupEvents s.cfg (.voice .v1) (encVoice s.chipState.v1))).afterCalls
        (groupEvents s.cfg (.voice .v2) (encVoice s.chipState.v2))) := by
  change runAll [.writeVoice (vselOf .v0), .writeVoice (vselOf .v1), .writeVoice (vselOf .v2)] s = _
  simp only [runAll_cons_of_next (exec_writeVoice_eq_afterCalls _ _)]
  simp only [runAll, State.afterCalls_cfg, State.afterCalls_chipState, payloadOf, ChipState.voice]

theorem runAll_writeAllVoices_writeFilter (s : State) :
    runAll [.writeAllVoices, .writeFilter] s =
      some ((s.afterCalls (voicesEvents s.cfg s.chipState)).afterCalls
        (groupEvents s.cfg .filter (encFilter s.chipState.filter))) := by
  rw [runAll_cons_of_next (exec_writeAllVoices_eq_afterCalls _), runAll_cons_of_next (exec_writeFilter_eq_afterCalls _)]
  simp only [runAll, State.afterCalls_cfg, State.afterCalls_chipState, payloadOf]

/-- Settles O38: the calls of a composite command are those of its parts, in their order. -/
theorem compositeCommandsAreTheirParts : Obligations.CompositeCommandsAreTheirParts := by
  intro s
  exact ⟨⟨_, _, exec_writeAllVoices_eq_afterCalls s, runAll_writeVoices s, s.afterCalls_append_append ..⟩,
    ⟨_, _, exec_initializeChip_eq_afterCalls s, runAll_writeAllVoices_writeFilter s, s.afterCalls_append ..⟩⟩

end Sys2Proof.Machine

/-! ### The frame rows inside their commands (R183, R197) -/

namespace Sys2Proof.Machine

/-- The rows of R78 with their indices are the decoder's table, in its order. -/
theorem frameRows_linear (d : Byte) : frameRows .linear d = (linearFrames.map (· d)).zipIdx := rfl

theorem frameRows_shifted (d : Byte) : frameRows .shifted d = (shiftedFrames.map (· d)).zipIdx := rfl

theorem registerFrame_of_mem_frameRows {conv : Conv} {d : Byte} {p : Instr × Nat} (hp : p ∈ frameRows conv d) :
    ∃ f, registerFrame conv p.2 = some f ∧ p.1 = f d := by
  have hrow {l : List (Byte → Instr)} (hp : p ∈ (l.map (· d)).zipIdx) : ∃ f, l[p.2]? = some f ∧ p.1 = f d := by
    rw [List.mem_zipIdx_iff_getElem?, List.getElem?_map] at hp
    obtain ⟨f, hf, hfd⟩ := Option.map_eq_some_iff.mp hp
    exact ⟨f, hf, hfd.symm⟩
  cases conv with
  | linear => exact hrow (frameRows_linear d ▸ hp)
  | shifted => exact hrow (frameRows_shifted d ▸ hp)

theorem registerFrame_conv {conv : Conv} {k : Nat} {f : Byte → Instr} (hf : registerFrame conv k = some f) (d : Byte) :
    (f d).conv? = some conv :=
  decodeFrame_conv (decodeFrame_wireAddr hf d)

/-- No register row is the reset frame: an observer tells their address bytes apart (R166). -/
theorem registerFrame_ne_reset {conv : Conv} {k : Nat} {f : Byte → Instr} (hf : registerFrame conv k = some f)
    (d : Byte) (index : BitVec 7) (b : Byte) : f d ≠ .frameShiftedReset index b := by
  intro h
  have hconv := registerFrame_conv hf d
  have henc := encode_registerFrame hf d
  rw [h] at hconv henc
  cases hconv
  have haddr := congrArg frameAddress (Slot.frame.inj henc)
  rw [frameAddress_append, frameAddress_append] at haddr
  have hobserve := observe_resetAddr index.toNat
  rw [haddr, observe_wireAddr _ (registerFrame_lt hf)] at hobserve
  cases hobserve

theorem framePhase_of_ne_reset {i : Instr} (h : ∀ index b, i ≠ .frameShiftedReset index b) :
    framePhase i = .transmitting := by
  cases i with
  | frameShiftedReset index b => exact absurd rfl (h index b)
  | _ => rfl

theorem ownFrame_of_ne_reset {i : Instr} (h : ∀ index b, i ≠ .frameShiftedReset index b) (c : Config) :
    ownFrame i c = i.wellFormed := by
  cases i with
  | frameShiftedReset index b => exact absurd rfl (h index b)
  | _ => rfl

theorem transmit_eq_afterFrame (a d : Byte) (s : State) : transmit a d s = s.afterFrame a d := rfl

/-- Where a frame row of the block's convention is due, inside its command, it is sent (R50, R90). -/
theorem exec_frame_of_due {i : Instr} {a d : Byte} {s : State} (hconv : i.conv? = some s.cfg.conv)
    (hf : encode i = .frame (a ++ d)) (hown : ownFrame i s.cfg = true) (hphase : s.phase = framePhase i)
    (hcs : s.cs = .driven .low) (hdue : s.due = some (a ++ d)) : exec i s = .next (s.afterFrame a d) := by
  simp [exec_frame hconv hf, frameAnswer, hown, atFrame_iff.mpr ⟨hphase, hcs, hdue⟩, transmit_eq_afterFrame]

/-- Settles O56: each row is looked up in the decoder's table, and `exec_frame_of_due` says what it does. -/
theorem registerFramesAreSentInsideTheirCommand : Obligations.RegisterFramesAreSentInsideTheirCommand := by
  intro conv d s hconv hphase p hp
  subst hconv
  obtain ⟨f, hf, hrow⟩ := registerFrame_of_mem_frameRows hp
  have hne : ∀ index b, p.1 ≠ .frameShiftedReset index b := hrow ▸ registerFrame_ne_reset hf d
  have hc : p.1.conv? = some s.cfg.conv := hrow ▸ registerFrame_conv hf d
  have henc : encode p.1 = .frame (wireAddr s.cfg.conv p.2 ++ d) := hrow ▸ encode_registerFrame hf d
  have hown : ownFrame p.1 s.cfg = p.1.wellFormed := ownFrame_of_ne_reset hne s.cfg
  have hp' : s.phase = framePhase p.1 := hphase.trans (framePhase_of_ne_reset hne).symm
  refine ⟨henc, fun hwf hcs hdue => ⟨?_, fun k => ?_⟩, fun hwf => ⟨_, ?_, rfl⟩⟩
  · exact exec_frame_of_due hc henc (hown.trans hwf) hp' hcs hdue
  · rw [State.afterFrame, Memory.after_frame _ (registerFrame_lt hf), Memory.read_write]
  · exact exec_frame_of_due hc henc (hown.trans hwf) hp' rfl rfl

/-- Settles O57: the block's own reset frame by `exec_frame_of_due`, its address byte by `bits_resetAddr`. -/
theorem resetFrameRowIsSentInsideReset : Obligations.ResetFrameRowIsSentInsideReset := by
  intro s index d hconv hphase hindex hd
  have hown : ownFrame (.frameShiftedReset index d) s.cfg = true := by simp [ownFrame, ownResetFrame, hindex, hd]
  have hc : (Instr.frameShiftedReset index d).conv? = some s.cfg.conv := by rw [hconv]; rfl
  refine ⟨rfl, fun hcs hdue => ⟨exec_frame_of_due hc rfl hown hphase hcs hdue, fun k => ?_⟩,
    ⟨_, exec_frame_of_due hc rfl hown hphase rfl rfl, ?_⟩, bits_resetAddr index,
    (observe_resetSignal (observe_resetAddr _)).2⟩
  · rw [State.afterFrame, hconv, Memory.after_reset]
    rfl
  · rw [hindex, hd]
    rfl

end Sys2Proof.Machine

/-! ### The frames a command sends (R90, R199) -/

namespace Sys2Proof.Machine

/-- A checked operand lets the command go on; an error is raised without a call (R221, R229). -/
theorem withOperand_trace {α : Type} {x : Except CommandError α} {s t : State}
    {k : α → Host.Outcome State Fault Refusal} (h : withOperand x s k = .next t) :
    (∃ a, x = .ok a ∧ k a = .next t) ∨ ((∃ e, x = .error e) ∧ t.trace = s.trace) := by
  cases x with
  | ok a => exact .inl ⟨a, rfl, h⟩
  | error e =>
    cases h
    exact .inr ⟨⟨e, rfl⟩, rfl⟩

/-- A state update makes no call (R106). -/
theorem updateFilter_trace {α : Type} {x : Except CommandError α} {f : Filter → α → Filter} {s t : State}
    (h : updateFilter x f s = .next t) : t.trace = s.trace := by
  obtain ⟨a, -, h⟩ | ⟨-, h⟩ := withOperand_trace h
  · cases h
    rfl
  · exact h

theorem updateVoice_trace {α : Type} {v : BitVec 2} {x : Except CommandError α} {f : Voice → α → Voice} {s t : State}
    (h : updateVoice v x f s = .next t) : t.trace = s.trace := by
  obtain ⟨ix, -, h⟩ | ⟨-, h⟩ := withOperand_trace h
  · obtain ⟨a, -, h⟩ | ⟨-, h⟩ := withOperand_trace h
    · cases h
      rfl
    · exact h
  · exact h

/-- The calls a command can make: group writes of `S` as it stands, none of them for a state update, or those of `RESET`
(R106, R186 to R195). -/
def CommandCalls (i : Instr) (c : Config) (S : ChipState) (es : List Event) : Prop :=
  (∃ gs : List Group, es = gs.flatMap fun g => groupEvents c g (payloadOf S g)) ∨ (i = .reset ∧ es = resetEvents c)

theorem exec_command_trace {i : Instr} {s t : State} (hi : i.conv? = none) (h : exec i s = .next t) :
    ∃ es, t.trace = s.trace ++ es ∧ CommandCalls i s.cfg s.chipState es := by
  have hnone (ht : t.trace = s.trace) : ∃ es, t.trace = s.trace ++ es ∧ CommandCalls i s.cfg s.chipState es :=
    ⟨[], by simp [ht], .inl ⟨[], rfl⟩⟩
  cases i with
  | reset =>
    cases exec_reset_eq_afterCalls s ▸ h
    exact ⟨_, rfl, .inr ⟨rfl, rfl⟩⟩
  | writeVoice v =>
    obtain ⟨ix, -, h⟩ | ⟨-, ht⟩ := withOperand_trace h
    · cases h
      exact ⟨_, (emits_sendGroup _ s).trace, .inl ⟨[.voice ix], by simp⟩⟩
    · exact hnone ht
  | writeFilter =>
    cases exec_writeFilter_eq_afterCalls s ▸ h
    exact ⟨_, rfl, .inl ⟨[.filter], by simp⟩⟩
  | writeAllVoices =>
    cases exec_writeAllVoices_eq_afterCalls s ▸ h
    exact ⟨_, rfl, .inl ⟨[.voice .v0, .voice .v1, .voice .v2], by simp [voicesEvents, payloadOf, ChipState.voice]⟩⟩
  | initializeChip =>
    cases exec_initializeChip_eq_afterCalls s ▸ h
    exact ⟨_, rfl, .inl ⟨[.voice .v0, .voice .v1, .voice .v2, .filter],
      by simp [initializeEvents, voicesEvents, payloadOf, ChipState.voice]⟩⟩
  | setvFreq | setvPw | setvAttack | setvDecay | setvSustain | setvRelease | setvShape | setvCflags | setvCflagsAdd
  | setvCflagsRemove =>
    simp only [exec, execSetvFreq, execSetvPw, execSetvAttack, execSetvDecay, execSetvSustain, execSetvRelease,
      execSetvShape, execSetvCflags, execSetvCflagsAdd, execSetvCflagsRemove] at h
    exact hnone (updateVoice_trace h)
  | setfCutoff | setfRes | setfVol | setfMode | setfModeAdd | setfModeRemove | setfTargets | setfTargetsAdd
  | setfTargetsRemove =>
    simp only [exec, execSetfCutoff, execSetfRes, execSetfVol, execSetfMode, execSetfModeAdd, execSetfModeRemove,
      execSetfTargets, execSetfTargetsAdd, execSetfTargetsRemove] at h
    exact hnone (updateFilter_trace h)
  | _ => cases hi

theorem tx_not_mem_settleEvents (c : Config) (q : List Byte) : .tx q ∉ settleEvents c := by
  unfold settleEvents
  split <;> simp

/-- The frames of a payload, under either framing: byte `i` to the `i`-th register from the first on (R184). -/
theorem tx_mem_frameEvents {c : Config} {p q : List Byte} {idx : Nat} (h : .tx q ∈ frameEvents c idx p) :
    ∃ i d, p[i]? = some d ∧ q = [wireAddr c.conv (idx + i), d] := by
  induction p generalizing idx with
  | nil => cases h
  | cons b p ih =>
    obtain h | h := List.mem_cons.mp h
    · cases h
      exact ⟨0, b, rfl, rfl⟩
    · obtain ⟨i, d, hd, rfl⟩ := ih h
      exact ⟨i + 1, d, hd, by rw [Nat.add_right_comm, Nat.add_assoc]⟩

theorem tx_mem_registerEvents {c : Config} {p q : List Byte} {idx : Nat} (h : .tx q ∈ registerEvents c idx p) :
    ∃ i d, p[i]? = some d ∧ q = [wireAddr c.conv (idx + i), d] := by
  induction p generalizing idx with
  | nil => cases h
  | cons b p ih =>
    simp only [registerEvents, writeRegEvents, List.mem_append, List.mem_cons, List.not_mem_nil,
      tx_not_mem_settleEvents, or_false, reduceCtorEq, false_or, Event.tx.injEq] at h
    obtain rfl | h := h
    · exact ⟨0, b, rfl, rfl⟩
    · obtain ⟨i, d, hd, rfl⟩ := ih h
      exact ⟨i + 1, d, hd, by rw [Nat.add_right_comm, Nat.add_assoc]⟩

theorem tx_mem_groupEvents {c : Config} {g : Group} {p q : List Byte} (h : .tx q ∈ groupEvents c g p) :
    ∃ i d, p[i]? = some d ∧ q = [wireAddr c.conv (indexOf g i), d] := by
  unfold groupEvents at h
  split at h
  · exact tx_mem_registerEvents h
  · exact tx_mem_frameEvents (by simpa [tx_not_mem_settleEvents] using h)

/-- What R90 (a) and (b) ask of the bytes of a group's payload, in order. -/
def groupBytesOk : Group → List (Byte → Bool)
  | .voice _ => [fun _ => true, fun _ => true, fun _ => true, pwHiOk, controlOk, fun _ => true, fun _ => true]
  | .filter => [fcLoOk, fun _ => true, fun _ => true, fun _ => true]

/-- The rows of a group's registers ask just that. -/
theorem registerFrame_indexOf (conv : Conv) {g : Group} {i : Nat} {ok : Byte → Bool}
    (h : (groupBytesOk g)[i]? = some ok) :
    ∃ f, registerFrame conv (indexOf g i) = some f ∧ ∀ d, (f d).wellFormed = ok d := by
  obtain ⟨hi, rfl⟩ := List.getElem?_eq_some_iff.mp h
  cases g with
  | voice v =>
    replace hi : i < 7 := hi
    cases conv <;> cases v <;> interval_cases i <;> exact ⟨_, rfl, fun _ => rfl⟩
  | filter =>
    replace hi : i < 4 := hi
    cases conv <;> interval_cases i <;> exact ⟨_, rfl, fun _ => rfl⟩

/-- Above its width a zero-extended value has no bit set (R10). -/
theorem extractLsb'_zext_eq_zero {n m lo width : Nat} (v : BitVec n) (h : n ≤ lo) :
    (zext m v).extractLsb' lo width = 0 := by
  ext j hj
  simp [BitVec.getLsbD_of_ge v (lo + j) (by omega)]

/-- The high byte of the pulse width carries four bits (R34). -/
theorem pwHiOk_zext (v : U4) : pwHiOk (zext 8 v) = true :=
  beq_iff_eq.mpr (extractLsb'_zext_eq_zero v (by decide))

/-- The low byte of the cutoff carries three bits (R38). -/
theorem fcLoOk_zext (v : BitVec 3) : fcLoOk (zext 8 v) = true :=
  beq_iff_eq.mpr (extractLsb'_zext_eq_zero v (by decide))

/-- The flags leave the high nibble of the control byte to the shape, which sets one bit of it (R35, R142). -/
theorem controlOk_encControl (x : Control) : controlOk (encControl x) = true := by
  have hnibble : (encControl x).extractLsb' 4 4 = (shapeBits x.shape).extractLsb' 4 4 := by
    rw [encControl, BitVec.extractLsb'_or, extractLsb'_zext_eq_zero x.flags (by decide)]
    exact BitVec.or_zero
  rw [controlOk, hnibble]
  cases x.shape <;> rfl

/-- The payload encoders write no other byte. -/
theorem payload_bytesOk (S : ChipState) (g : Group) :
    List.Forall₂ (fun ok d => ok d = true) (groupBytesOk g) (payloadOf S g) := by
  cases g with
  | voice v => simp [groupBytesOk, payloadOf, encVoice, encEnvelope, pwHiOk_zext, controlOk_encControl]
  | filter => simp [groupBytesOk, payloadOf, encFilter, fcLoOk_zext]

theorem payload_registerFrame (conv : Conv) {S : ChipState} {g : Group} {i : Nat} {d : Byte}
    (hd : (payloadOf S g)[i]? = some d) :
    ∃ f, registerFrame conv (indexOf g i) = some f ∧ (f d).wellFormed = true := by
  have hok := payload_bytesOk S g
  obtain ⟨hi, rfl⟩ := List.getElem?_eq_some_iff.mp hd
  obtain ⟨f, hf, hwf⟩ := registerFrame_indexOf conv (List.getElem?_eq_getElem (hok.length_eq ▸ hi))
  exact ⟨f, hf, (hwf _).trans (hok.get _ hi)⟩

/-- A frame of the table of `c` with a byte R90 allows; the reset frame is one of `RESET` only, and the block's own. -/
def SentByTable (c : Config) (i : Instr) (p : List Byte) : Prop :=
  ∃ a d j, p = [a, d] ∧ decodeFrame c.conv (a ++ d) = .ok j ∧ j.wellFormed = true ∧
    ∀ index b, j = .frameShiftedReset index b → i = .reset ∧ index.toNat = c.resetFrameIndex ∧ b = c.resetFrameData

theorem sentByTable_of_mem_groupEvents {c : Config} {S : ChipState} {g : Group} {p : List Byte} (i : Instr)
    (h : .tx p ∈ groupEvents c g (payloadOf S g)) : SentByTable c i p := by
  obtain ⟨k, d, hd, rfl⟩ := tx_mem_groupEvents h
  obtain ⟨f, hf, hwf⟩ := payload_registerFrame c.conv hd
  exact ⟨_, d, f d, rfl, decodeFrame_wireAddr hf d, hwf,
    fun index b h => absurd h (registerFrame_ne_reset hf d index b)⟩

theorem sentByTable_of_mem_resetEvents {c : Config} {p : List Byte} (hwf : c.wf = true)
    (h : .tx p ∈ resetEvents c) : SentByTable c .reset p := by
  cases hconv : c.conv with
  | linear => simp [resetEvents, hconv, resetLineEvents] at h
  | shifted =>
    have hp : p = [resetAddr c.resetFrameIndex, c.resetFrameData] := by
      simpa [resetEvents, hconv, resetFrameEvents] using h
    have hlt : c.resetFrameIndex < 2 ^ 7 := by
      simp only [Config.wf, Bool.and_eq_true, decide_eq_true_eq] at hwf
      omega
    have hindex : (BitVec.ofNat 7 c.resetFrameIndex).toNat = c.resetFrameIndex := by
      rw [BitVec.toNat_ofNat, Nat.mod_eq_of_lt hlt]
    refine ⟨_, _, .frameShiftedReset (BitVec.ofNat 7 c.resetFrameIndex) c.resetFrameData, hp, ?_, rfl, ?_⟩
    · rw [hconv, ← decodeFrame_resetAddr, hindex]
    · intro index b h
      cases h
      exact ⟨rfl, hindex, rfl⟩

/-- Settles O59: a command sends payload bytes to their registers, or the reset frame. -/
theorem everyTransmissionIsAFrameOfTheTable : Obligations.EveryTransmissionIsAFrameOfTheTable := by
  intro i s t hi hwf h
  obtain ⟨es, ht, ⟨gs, rfl⟩ | ⟨rfl, rfl⟩⟩ := exec_command_trace hi h
  · refine ⟨_, ht, fun p hp => ?_⟩
    obtain ⟨g, -, hg⟩ := List.mem_flatMap.mp hp
    exact sentByTable_of_mem_groupEvents i hg
  · exact ⟨_, ht, fun p hp => sentByTable_of_mem_resetEvents hwf hp⟩

end Sys2Proof.Machine

/-! ### Operands (R100 to R105)

What each operand check answers, on both sides of its bound.
-/

namespace Sys2Proof.Machine

theorem mkValue_of_lt {n x : Nat} (f : FieldId) (h : x < 2 ^ n) : mkValue n f x = .ok (BitVec.ofNat n x) :=
  if_pos h

theorem mkValue_of_le {n x : Nat} (f : FieldId) (h : 2 ^ n ≤ x) : mkValue n f x = .error (.rangeError f x) :=
  if_neg (Nat.not_lt.mpr h)

/-- `mk_N` after `val_N` (R101). -/
theorem mkValue_toNat {n : Nat} (f : FieldId) (u : BitVec n) : mkValue n f u.toNat = .ok u := by
  rw [mkValue_of_lt f u.isLt, BitVec.ofNat_toNat, BitVec.setWidth_eq]

/-- A value written into a wider immediate is the operand that comes out of it. -/
theorem mkValue_toNat_zext {n m : Nat} (hnm : n ≤ m) (f : FieldId) (u : BitVec n) :
    mkValue n f (zext m u).toNat = .ok u := by
  rw [BitVec.toNat_setWidth_of_le hnm, mkValue_toNat]

/-- An immediate in range is its low bits (R110 to R128). -/
theorem mkValue_imm {n : Nat} (f : FieldId) {imm : U16} (h : imm.toNat < 2 ^ n) :
    mkValue n f imm.toNat = .ok (bits imm 0 n) :=
  mkValue_of_lt f h

/-- Settles O32, with `mkValue_of_lt`, `mkValue_of_le` and `mkValue_toNat` for every width. -/
theorem constrainedIntegersFailAndNeverTruncate : Obligations.ConstrainedIntegersFailAndNeverTruncate := by
  intro n _ f
  exact ⟨fun x hx => ⟨_, mkValue_of_lt f hx, Nat.mod_eq_of_lt hx⟩, fun x hx => mkValue_of_le f hx,
    fun u => ⟨u.isLt, mkValue_toNat f u⟩, fun _ => rfl⟩

/-- `shape_of` is undone by `code` (R105). -/
theorem shapeOf_shapeCode (shape : Shape) : shapeOf (shapeCode shape) = .ok shape := by
  cases shape <;> rfl

theorem shapeOf_of_gt {c : Nat} (h : 3 < c) : shapeOf c = .error (.rangeError .shape c) := by
  unfold shapeOf
  split
  case h_5 => rfl
  all_goals omega

theorem exists_shapeCode {c : Nat} (h : c ≤ 3) : ∃ shape, shapeCode shape = c := by
  interval_cases c
  exacts [⟨.triangle, rfl⟩, ⟨.sawtooth, rfl⟩, ⟨.square, rfl⟩, ⟨.noise, rfl⟩]

/-- The immediate that is the code of a shape selects it (R116). -/
theorem shapeOperand_shapeCode (shape : Shape) : shapeOperand (BitVec.ofNat 16 (shapeCode shape)) = .ok shape := by
  have hcode : (BitVec.ofNat 16 (shapeCode shape)).toNat = shapeCode shape := by cases shape <;> rfl
  rw [shapeOperand, hcode, shapeOf_shapeCode]

end Sys2Proof.Machine

/-! ### Flag sets (R103) -/

namespace Sys2Proof.Machine

/-- The four bits of a set are all there are: masking the complement takes nothing away. -/
theorem flagRemove_eq (s t : U4) : flagRemove s t = s &&& ~~~t :=
  congrArg (s &&& ·) BitVec.and_allOnes

theorem flagHas_iff (s f : U4) : flagHas s f = true ↔ s &&& f ≠ 0 :=
  bne_iff_ne

theorem flagAdd_flagAdd (s f : U4) : flagAdd (flagAdd s f) f = flagAdd s f := by
  rw [flagAdd, flagAdd, BitVec.or_assoc, BitVec.or_self]

theorem flagRemove_flagRemove (s f : U4) : flagRemove (flagRemove s f) f = flagRemove s f := by
  simp only [flagRemove_eq, BitVec.and_assoc, BitVec.and_self]

theorem flagRemove_flagAdd (s t : U4) : flagRemove (flagAdd s t) t = flagRemove s t := by
  simp only [flagRemove_eq, flagAdd, BitVec.and_or_distrib_right, BitVec.and_not_self]
  exact BitVec.or_zero

/-- Settles O33: the laws of `flagAdd` and `flagRemove`; the names stand on bits 0 to 3. -/
theorem flagSetOperations : Obligations.FlagSetOperations := by
  refine ⟨fun s f => ⟨flagHas_iff s f, rfl, rfl, rfl, flagAdd_flagAdd s f, flagRemove_flagRemove s f,
    flagRemove_flagAdd s f, BitVec.or_zero, ?_⟩, rfl, rfl, rfl⟩
  exact (flagRemove_eq s 0).trans BitVec.and_allOnes

end Sys2Proof.Machine

/-! ### One state update (R106, R228)

What the templates of `SETV.*` and `SETF.*` answer on a voice that is none, on an operand that fails its check, and on
one that passes; then the whole of a row whose operand is a number of `n` bits.
-/

namespace Sys2Proof.Machine

section Templates

variable {α : Type} {x : Except CommandError α} (s : State)

/-- The voice index is checked first (R228). -/
theorem updateVoice_three (x : Except CommandError α) (f : Voice → α → Voice) :
    updateVoice 3 x f s = .next (s.onlyResult (.err (.rangeError .voiceIndex 3))) := rfl

theorem updateVoice_ok {a : α} (hx : x = .ok a) (ix : VoiceIx) (f : Voice → α → Voice) :
    updateVoice (vselOf ix) x f s =
      .next (s.afterSet (s.chipState.setVoice ix (f (s.chipState.voice ix) a))) := by
  rw [updateVoice, voiceOf_vselOf, hx]
  rfl

theorem updateVoice_error {e : CommandError} (hx : x = .error e) (ix : VoiceIx) (f : Voice → α → Voice) :
    updateVoice (vselOf ix) x f s = .next (s.onlyResult (.err e)) := by
  rw [updateVoice, voiceOf_vselOf, hx]
  rfl

theorem updateFilter_ok {a : α} (hx : x = .ok a) (f : Filter → α → Filter) :
    updateFilter x f s = .next (s.afterSet { s.chipState with filter := f s.chipState.filter a }) := by
  rw [updateFilter, hx]
  rfl

theorem updateFilter_error {e : CommandError} (hx : x = .error e) (f : Filter → α → Filter) :
    updateFilter x f s = .next (s.onlyResult (.err e)) := by
  rw [updateFilter, hx]
  rfl

end Templates

/-! The meaning of each row by its template (R110 to R128). -/

theorem exec_setvFreq (v : BitVec 2) (imm : U16) (s : State) : exec (.setvFreq v imm) s =
    updateVoice v (freqOperand imm) (fun x a => { x with freq := a }) s := rfl

theorem exec_setvPw (v : BitVec 2) (imm : U16) (s : State) : exec (.setvPw v imm) s =
    updateVoice v (mkValue 12 .pw imm.toNat) (fun x a => { x with pw := a }) s := rfl

theorem exec_setvAttack (v : BitVec 2) (imm : U16) (s : State) : exec (.setvAttack v imm) s =
    updateVoice v (mkValue 4 .attack imm.toNat) (fun x a => { x with env := { x.env with attack := a } }) s := rfl

theorem exec_setvDecay (v : BitVec 2) (imm : U16) (s : State) : exec (.setvDecay v imm) s =
    updateVoice v (mkValue 4 .decay imm.toNat) (fun x a => { x with env := { x.env with decay := a } }) s := rfl

theorem exec_setvSustain (v : BitVec 2) (imm : U16) (s : State) : exec (.setvSustain v imm) s =
    updateVoice v (mkValue 4 .sustain imm.toNat) (fun x a => { x with env := { x.env with sustain := a } }) s := rfl

theorem exec_setvRelease (v : BitVec 2) (imm : U16) (s : State) : exec (.setvRelease v imm) s =
    updateVoice v (mkValue 4 .release imm.toNat) (fun x a => { x with env := { x.env with release := a } }) s := rfl

theorem exec_setvShape (v : BitVec 2) (imm : U16) (s : State) : exec (.setvShape v imm) s =
    updateVoice v (shapeOperand imm) (fun x a => { x with ctrl := { x.ctrl with shape := a } }) s := rfl

theorem exec_setvCflags (v : BitVec 2) (imm : U16) (s : State) : exec (.setvCflags v imm) s =
    updateVoice v (mkValue 4 .cflags imm.toNat) (fun x a => { x with ctrl := { x.ctrl with flags := a } }) s := rfl

theorem exec_setvCflagsAdd (v : BitVec 2) (imm : U16) (s : State) : exec (.setvCflagsAdd v imm) s =
    updateVoice v (mkValue 4 .cflags imm.toNat)
      (fun x a => { x with ctrl := { x.ctrl with flags := x.ctrl.flags ||| a } }) s := rfl

theorem exec_setvCflagsRemove (v : BitVec 2) (imm : U16) (s : State) : exec (.setvCflagsRemove v imm) s =
    updateVoice v (mkValue 4 .cflags imm.toNat)
      (fun x a => { x with ctrl := { x.ctrl with flags := x.ctrl.flags &&& ~~~a } }) s := by
  simp only [exec, execSetvCflagsRemove, flagRemove_eq]
  rfl

theorem exec_setfCutoff (imm : U16) (s : State) : exec (.setfCutoff imm) s =
    updateFilter (mkValue 11 .cutoff imm.toNat) (fun f a => { f with cutoff := a }) s := rfl

theorem exec_setfRes (imm : U16) (s : State) : exec (.setfRes imm) s =
    updateFilter (mkValue 4 .res imm.toNat) (fun f a => { f with res := a }) s := rfl

theorem exec_setfVol (imm : U16) (s : State) : exec (.setfVol imm) s =
    updateFilter (mkValue 4 .vol imm.toNat) (fun f a => { f with vol := a }) s := rfl

theorem exec_setfMode (imm : U16) (s : State) : exec (.setfMode imm) s =
    updateFilter (mkValue 4 .mode imm.toNat) (fun f a => { f with mode := a }) s := rfl

theorem exec_setfModeAdd (imm : U16) (s : State) : exec (.setfModeAdd imm) s =
    updateFilter (mkValue 4 .mode imm.toNat) (fun f a => { f with mode := f.mode ||| a }) s := rfl

theorem exec_setfModeRemove (imm : U16) (s : State) : exec (.setfModeRemove imm) s =
    updateFilter (mkValue 4 .mode imm.toNat) (fun f a => { f with mode := f.mode &&& ~~~a }) s := by
  simp only [exec, execSetfModeRemove, flagRemove_eq]
  rfl

theorem exec_setfTargets (imm : U16) (s : State) : exec (.setfTargets imm) s =
    updateFilter (mkValue 4 .targets imm.toNat) (fun f a => { f with targets := a }) s := rfl

theorem exec_setfTargetsAdd (imm : U16) (s : State) : exec (.setfTargetsAdd imm) s =
    updateFilter (mkValue 4 .targets imm.toNat) (fun f a => { f with targets := f.targets ||| a }) s := rfl

theorem exec_setfTargetsRemove (imm : U16) (s : State) : exec (.setfTargetsRemove imm) s =
    updateFilter (mkValue 4 .targets imm.toNat) (fun f a => { f with targets := f.targets &&& ~~~a }) s := by
  simp only [exec, execSetfTargetsRemove, flagRemove_eq]
  rfl

/-- The row of `SETV.*` with `FSEL` = `k` whose operand is a number of `n` bits: its decoding, its two errors and its
update, in full. -/
theorem setv_row {n max : Nat} {field : FieldId} {k : BitVec 5} {cmd : BitVec 2 → U16 → Instr}
    {f : Voice → BitVec n → Voice}
    (hexec : ∀ v imm s, exec (cmd v imm) s = updateVoice v (mkValue n field imm.toNat) f s)
    (hcmd : voiceFields[k.toNat]? = some cmd) (hmax : max + 1 = 2 ^ n) (s : State) (imm : U16) :
    (∀ v, decodeCommand (commandWord 6 v k imm) = .ok (cmd v imm)) ∧
      exec (cmd 3 imm) s = .next (s.onlyResult (.err (.rangeError .voiceIndex 3))) ∧
      ∀ ix, (imm.toNat ≤ max → exec (cmd (vselOf ix) imm) s =
          .next (s.afterSet (s.chipState.setVoice ix (f (s.chipState.voice ix) (bits imm 0 n))))) ∧
        (max < imm.toNat → exec (cmd (vselOf ix) imm) s =
          .next (s.onlyResult (.err (.rangeError field imm.toNat)))) := by
  refine ⟨fun v => decodeCommand_setvWord hcmd v imm, ?_, fun ix => ⟨fun himm => ?_, fun himm => ?_⟩⟩
  · rw [hexec, updateVoice_three]
  · rw [hexec, updateVoice_ok s (mkValue_imm field (by omega))]
  · rw [hexec, updateVoice_error s (mkValue_of_le field (by omega))]

/-- The row of `SETF.*` with `FSEL` = `k` whose operand is a number of `n` bits. -/
theorem setf_row {n max : Nat} {field : FieldId} {k : BitVec 5} {cmd : U16 → Instr}
    {f : Filter → BitVec n → Filter}
    (hexec : ∀ imm s, exec (cmd imm) s = updateFilter (mkValue n field imm.toNat) f s)
    (hcmd : filterFields[k.toNat]? = some cmd) (hmax : max + 1 = 2 ^ n) (s : State) (imm : U16) :
    decodeCommand (commandWord 7 0 k imm) = .ok (cmd imm) ∧
      (imm.toNat ≤ max → exec (cmd imm) s =
        .next (s.afterSet { s.chipState with filter := f s.chipState.filter (bits imm 0 n) })) ∧
      (max < imm.toNat → exec (cmd imm) s = .next (s.onlyResult (.err (.rangeError field imm.toNat)))) := by
  refine ⟨decodeCommand_setfWord hcmd imm, fun himm => ?_, fun himm => ?_⟩
  · rw [hexec, updateFilter_ok s (mkValue_imm field (by omega))]
  · rw [hexec, updateFilter_error s (mkValue_of_le field (by omega))]

/-- Settles O10: no immediate is refused, so only the voice index is checked (`exec_setvFreq_vselOf`). -/
theorem setvFreqStoresFrequency : Obligations.SetvFreqStoresFrequency := by
  intro s imm
  refine ⟨⟨fun v => decodeCommand_setvWord rfl v imm, ?_, fun ix => exec_setvFreq_vselOf ix imm s⟩, fun _ => rfl⟩
  rw [exec_setvFreq, updateVoice_three]

/-- Settles O11: the row of the 12-bit pulse width. -/
theorem setvPwStoresPulseWidth : Obligations.SetvPwStoresPulseWidth :=
  setv_row exec_setvPw rfl rfl

/-- Settles O12: the rows of the four magnitudes. -/
theorem setvEnvelopeFields : Obligations.SetvEnvelopeFields := by
  intro s imm
  exact ⟨setv_row exec_setvAttack rfl rfl s imm, setv_row exec_setvDecay rfl rfl s imm,
    setv_row exec_setvSustain rfl rfl s imm, setv_row exec_setvRelease rfl rfl s imm⟩

/-- Settles O13: the operand is checked by `shape_of` (R105), which the codes 0 to 3 pass. -/
theorem setvShapeSelectsShape : Obligations.SetvShapeSelectsShape := by
  intro s
  simp only [exec_setvShape]
  exact ⟨decodeCommand_setvWord rfl, fun _ => updateVoice_three s _ _,
    fun ix shape => updateVoice_ok s (shapeOperand_shapeCode shape) ix _, fun _ => exists_shapeCode,
    fun ix _ himm => updateVoice_error s (shapeOf_of_gt himm) ix _⟩

/-- Settles O14: three rows of the 4-bit flag set. -/
theorem setvControlFlagSets : Obligations.SetvControlFlagSets := by
  intro s imm
  exact ⟨setv_row exec_setvCflags rfl rfl s imm, setv_row exec_setvCflagsAdd rfl rfl s imm,
    setv_row exec_setvCflagsRemove rfl rfl s imm⟩

/-- Settles O15: the row of the 11-bit cutoff. -/
theorem setfCutoffStoresCutoff : Obligations.SetfCutoffStoresCutoff :=
  setf_row exec_setfCutoff rfl rfl

/-- Settles O16: the rows of the two magnitudes. -/
theorem setfResonanceAndVolume : Obligations.SetfResonanceAndVolume := by
  intro s imm
  exact ⟨setf_row exec_setfRes rfl rfl s imm, setf_row exec_setfVol rfl rfl s imm⟩

/-- Settles O17: three rows of the 4-bit mode set. -/
theorem setfModeSets : Obligations.SetfModeSets := by
  intro s imm
  exact ⟨setf_row exec_setfMode rfl rfl s imm, setf_row exec_setfModeAdd rfl rfl s imm,
    setf_row exec_setfModeRemove rfl rfl s imm⟩

/-- Settles O18: three rows of the 4-bit target set. -/
theorem setfTargetSets : Obligations.SetfTargetSets := by
  intro s imm
  exact ⟨setf_row exec_setfTargets rfl rfl s imm, setf_row exec_setfTargetsAdd rfl rfl s imm,
    setf_row exec_setfTargetsRemove rfl rfl s imm⟩

end Sys2Proof.Machine

/-! ### The fields of `S` (R20 to R25, R130)

`S` as the list of its 29 field values. A state update modifies one entry of the list, at the place of its field: the
other entries stay as they are, and two updates at different places commute.
-/

namespace Sys2Proof.Machine

/-- The values of a voice's fields, in the order of R82. -/
def Voice.fields (x : Voice) : List Nat :=
  [x.freq.toNat, x.pw.toNat, x.env.attack.toNat, x.env.decay.toNat, x.env.sustain.toNat, x.env.release.toNat,
   shapeCode x.ctrl.shape, x.ctrl.flags.toNat]

/-- The values of the filter's fields, in the order of R83. -/
def Filter.fields (f : Filter) : List Nat :=
  [f.cutoff.toNat, f.res.toNat, f.vol.toNat, f.mode.toNat, f.targets.toNat]

def ChipState.fields (S : ChipState) : List Nat :=
  S.filter.fields ++ S.v0.fields ++ S.v1.fields ++ S.v2.fields

def voiceSetFields (v : BitVec 2) : List SetField :=
  [.freq v, .pw v, .attack v, .decay v, .sustain v, .release v, .shape v, .cflags v]

/-- All fields in the order of `ChipState.fields`. Those of `VSEL` 3 stand last, past the end of that list: they name no
field of `S`. -/
def setFields : List SetField :=
  [.cutoff, .res, .vol, .mode, .targets] ++ [0, 1, 2, 3].flatMap voiceSetFields

theorem mem_setFields (a : SetField) : a ∈ setFields := by
  cases a with
  | freq v | pw v | attack v | decay v | sustain v | release v | shape v | cflags v => revert v; decide
  | cutoff | res | vol | mode | targets => decide

theorem shapeCode_injective : Function.Injective shapeCode := fun x y h =>
  Except.ok.inj ((shapeOf_shapeCode x).symm.trans (h ▸ shapeOf_shapeCode y))

theorem Voice.fields_injective : Function.Injective Voice.fields := by
  rintro ⟨_, _, ⟨⟩, ⟨⟩⟩ ⟨_, _, ⟨⟩, ⟨⟩⟩ h
  simpa [Voice.fields, BitVec.toNat_inj, shapeCode_injective.eq_iff, and_assoc] using h

theorem Filter.fields_injective : Function.Injective Filter.fields := by
  rintro ⟨⟩ ⟨⟩ h
  simpa [Filter.fields, BitVec.toNat_inj] using h

theorem ChipState.fields_injective : Function.Injective ChipState.fields := by
  intro S T h
  obtain ⟨h, h2⟩ := List.append_inj' h rfl
  obtain ⟨h, h1⟩ := List.append_inj' h rfl
  obtain ⟨hf, h0⟩ := List.append_inj' h rfl
  cases S
  cases T
  exact (ChipState.mk.injEq ..).mpr
    ⟨Voice.fields_injective h0, Voice.fields_injective h1, Voice.fields_injective h2, Filter.fields_injective hf⟩

/-- `u` is an update of the field `a`: it answers in every state, changes that entry of `S` by its old value alone, and
delivers one result; if the result is an error it changes nothing. -/
def UpdatesField (a : SetField) (u : State → Host.Outcome State Fault Refusal) : Prop :=
  ∃ (g : ChipState → ChipState) (φ : Nat → Nat) (r : Result),
    (∀ s, u s = .next ((s.setChipState (g s.chipState)).deliver r)) ∧
    (∀ S, (g S).fields = S.fields.modify (setFields.idxOf a) φ) ∧ (r ≠ .ok → g = id)

theorem updatesField_raise (a : SetField) (e : CommandError) : UpdatesField a (raise e) :=
  ⟨id, id, .err e, fun _ => rfl, fun _ => (List.modify_id ..).symm, fun _ => rfl⟩

/-- A voice operand that passes its check is the `VSEL` of its voice. -/
theorem eq_vselOf_of_voiceOf {v : BitVec 2} {ix : VoiceIx} (h : voiceOf v = .ok ix) : v = vselOf ix := by
  revert v
  cases ix <;> decide

theorem updatesField_updateVoice {α : Type} {a : BitVec 2 → SetField} {v : BitVec 2} {x : Except CommandError α}
    {f : Voice → α → Voice} (φ : α → Nat → Nat)
    (hf : ∀ ix c (S : ChipState), (S.setVoice ix (f (S.voice ix) c)).fields =
      S.fields.modify (setFields.idxOf (a (vselOf ix))) (φ c)) :
    UpdatesField (a v) (updateVoice v x f) := by
  unfold updateVoice
  cases hv : voiceOf v with
  | error e => exact updatesField_raise _ e
  | ok ix =>
    cases eq_vselOf_of_voiceOf hv
    cases x with
    | error e => exact updatesField_raise _ e
    | ok c => exact ⟨fun S => S.setVoice ix (f (S.voice ix) c), φ c, .ok, fun _ => rfl, hf ix c, fun h => absurd rfl h⟩

theorem updatesField_updateFilter {α : Type} {a : SetField} {x : Except CommandError α} {f : Filter → α → Filter}
    (φ : α → Nat → Nat)
    (hf : ∀ c (S : ChipState), { S with filter := f S.filter c }.fields = S.fields.modify (setFields.idxOf a) (φ c)) :
    UpdatesField a (updateFilter x f) := by
  unfold updateFilter
  cases x with
  | error e => exact updatesField_raise _ e
  | ok c => exact ⟨fun S => { S with filter := f S.filter c }, φ c, .ok, fun _ => rfl, hf c, fun h => absurd rfl h⟩

/-- A command is an update of the field it writes: it assigns the operand, or adds or removes its bits. -/
theorem exec_updatesField {i : Instr} {a : SetField} (h : setField? i = some a) : UpdatesField a (exec i) := by
  change UpdatesField a fun s => exec i s
  cases i with
  | setvFreq | setvPw | setvAttack | setvDecay | setvSustain | setvRelease | setvCflags =>
    cases h
    simp only [exec_setvFreq, exec_setvPw, exec_setvAttack, exec_setvDecay, exec_setvSustain, exec_setvRelease,
      exec_setvCflags]
    exact updatesField_updateVoice (fun c _ => c.toNat) fun ix _ _ => by cases ix <;> rfl
  | setvShape =>
    cases h
    simp only [exec_setvShape]
    exact updatesField_updateVoice (fun c _ => shapeCode c) fun ix _ _ => by cases ix <;> rfl
  | setvCflagsAdd =>
    cases h
    simp only [exec_setvCflagsAdd]
    exact updatesField_updateVoice (fun c n => n ||| c.toNat) fun ix _ _ => by cases ix <;> rfl
  | setvCflagsRemove =>
    cases h
    simp only [exec_setvCflagsRemove]
    exact updatesField_updateVoice (fun c n => n &&& (~~~c).toNat) fun ix _ _ => by cases ix <;> rfl
  | setfCutoff | setfRes | setfVol | setfMode | setfTargets =>
    cases h
    simp only [exec_setfCutoff, exec_setfRes, exec_setfVol, exec_setfMode, exec_setfTargets]
    exact updatesField_updateFilter (fun c _ => c.toNat) fun _ _ => rfl
  | setfModeAdd | setfTargetsAdd =>
    cases h
    simp only [exec_setfModeAdd, exec_setfTargetsAdd]
    exact updatesField_updateFilter (fun c n => n ||| c.toNat) fun _ _ => rfl
  | setfModeRemove | setfTargetsRemove =>
    cases h
    simp only [exec_setfModeRemove, exec_setfTargetsRemove]
    exact updatesField_updateFilter (fun c n => n &&& (~~~c).toNat) fun _ _ => rfl
  | _ => cases h

/-- Settles O19: each of the 19 commands writes a field, and `exec_updatesField` says what it does to the state. -/
theorem stateUpdatesReachNothingElse : Obligations.StateUpdatesReachNothingElse := by
  intro s v imm i hi
  obtain ⟨a, ha⟩ : ∃ a, setField? i = some a := by
    rw [← Option.isSome_iff_exists]
    revert i
    exact List.all_eq_true.mp rfl
  obtain ⟨g, -, r, hexec, -, herr⟩ := exec_updatesField ha
  exact ⟨g s.chipState, r, hexec s, fun hr => congrFun (herr hr) s.chipState⟩

/-- Settles O20: the two updates modify the list of fields at different places. -/
theorem stateUpdatesOfDifferentFieldsCommute : Obligations.StateUpdatesOfDifferentFieldsCommute := by
  intro i j a b s hi hj hab
  obtain ⟨g, φ, q, hexeci, hg, -⟩ := exec_updatesField hi
  obtain ⟨k, ψ, r, hexecj, hk, -⟩ := exec_updatesField hj
  refine ⟨_, _, (runAll_cons_of_next (hexeci _) _).trans (runAll_cons_of_next (hexecj _) _),
    (runAll_cons_of_next (hexecj _) _).trans (runAll_cons_of_next (hexeci _) _), ChipState.fields_injective ?_⟩
  have hplaces : setFields.idxOf a ≠ setFields.idxOf b := mt (List.idxOf_inj (mem_setFields a)).mp hab
  simp only [State.deliver_chipState, State.setChipState_chipState, hg, hk]
  exact List.modify_modify_ne φ ψ _ hplaces

end Sys2Proof.Machine

/-! ### A detached state object (R107) -/

namespace Sys2Proof.Machine

/-- The state after `n` state updates that all returned `Ok` and left `S` as given. -/
def State.afterSets (s : State) (S : ChipState) (n : Nat) : State :=
  { s with chipState := S, results := s.results ++ List.replicate n .ok }

theorem State.afterSet_eq_afterSets (s : State) (S : ChipState) : s.afterSet S = s.afterSets S 1 := rfl

@[simp] theorem State.afterSets_chipState (s : State) (S : ChipState) (n : Nat) :
    (s.afterSets S n).chipState = S := rfl

@[simp] theorem State.afterSets_afterSets (s : State) (S T : ChipState) (m n : Nat) :
    (s.afterSets S m).afterSets T n = s.afterSets T (m + n) := by
  simp [State.afterSets]

@[simp] theorem ChipState.setVoice_setVoice (S : ChipState) (v : VoiceIx) (x y : Voice) :
    (S.setVoice v x).setVoice v y = S.setVoice v y := by
  cases v <;> rfl

theorem runAll_append (is js : List Instr) (s : State) : runAll (is ++ js) s = (runAll is s).bind (runAll js) := by
  induction is generalizing s with
  | nil => rfl
  | cons i is ih =>
    rw [List.cons_append, runAll, runAll]
    cases exec i s with
    | next t => exact ih t
    | fault r => rfl
    | refused r => rfl

/-- The eight commands of a voice: every operand passes its check, and every field is overwritten. -/
theorem runAll_setVoiceCommands (ix : VoiceIx) (x : Voice) (s : State) :
    runAll (setVoiceCommands ix x) s = some (s.afterSets (s.chipState.setVoice ix x) 8) := by
  simp only [setVoiceCommands, runAll, exec_setvFreq, exec_setvPw, exec_setvAttack, exec_setvDecay, exec_setvSustain,
    exec_setvRelease, exec_setvShape, exec_setvCflags, freqOperand, shapeOperand_shapeCode, mkValue_toNat_zext,
    Nat.reduceLeDiff, updateVoice_ok _ rfl, State.afterSet_eq_afterSets]
  simp

/-- The five commands of the filter likewise. -/
theorem runAll_setFilterCommands (f : Filter) (s : State) :
    runAll (setFilterCommands f) s = some (s.afterSets { s.chipState with filter := f } 5) := by
  simp only [setFilterCommands, runAll, exec_setfCutoff, exec_setfRes, exec_setfVol, exec_setfMode, exec_setfTargets,
    mkValue_toNat_zext, Nat.reduceLeDiff, updateFilter_ok _ rfl, State.afterSet_eq_afterSets]
  simp

/-- Settles O47: the three voices and the filter, one after another, are the whole of `S`. -/
theorem detachedCommandsLoadTheState : Obligations.DetachedCommandsLoadTheState := by
  intro s x
  refine ⟨_, ?_, rfl⟩
  simp only [detachedCommands, runAll_append, runAll_setVoiceCommands, runAll_setFilterCommands, Option.bind_some,
    State.afterSets_chipState, State.afterSets_afterSets]
  rfl

end Sys2Proof.Machine

/-! ### The payload bytes (R70 to R74, R141 to R148)

Every byte of a payload is two fields next to each other, and so is every field that is split over two bytes. An encoder
is therefore a row of `++`, a decoder reads the halves back (`append_eq_iff`), and a byte's number is
`toNat_append_eq_add`.
-/

namespace Sys2Proof.Machine

section
variable {m n : Nat}

/-- Two fields next to each other make `v` exactly when they are its high and its low part. -/
theorem append_eq_iff {hi : BitVec m} {lo : BitVec n} {v : BitVec (m + n)} :
    hi ++ lo = v ↔ bits v n m = hi ∧ bits v 0 n = lo := by
  constructor
  · rintro rfl
    exact ⟨BitVec.extractLsb'_append_eq_left, BitVec.extractLsb'_append_eq_right⟩
  · rintro ⟨rfl, rfl⟩
    exact BitVec.extractLsb'_append_extractLsb'

theorem toNat_append_eq_add (hi : BitVec m) (lo : BitVec n) : (hi ++ lo).toNat = 2 ^ n * hi.toNat + lo.toNat := by
  rw [BitVec.toNat_append, ← Nat.shiftLeft_add_eq_or_of_lt lo.isLt, Nat.shiftLeft_eq, Nat.mul_comm]

/-- A number is its low part and `2 ^ n` times its high part. -/
theorem toNat_bits_add (v : BitVec (m + n)) : (bits v 0 n).toNat + 2 ^ n * (bits v n m).toNat = v.toNat := by
  rw [Nat.add_comm, ← toNat_append_eq_add, BitVec.extractLsb'_append_extractLsb']

/-- Zero-extension puts zeros in front (R10). -/
theorem zext_eq_zero_append (v : BitVec n) : zext (m + n) v = (0 : BitVec m) ++ v := by
  have hle : n ≤ m + n := Nat.le_add_left n m
  apply BitVec.eq_of_toNat_eq
  rw [BitVec.toNat_setWidth_of_le hle, toNat_append_eq_add]
  simp

theorem zext_eq_iff {v : BitVec n} {w : BitVec (m + n)} : zext (m + n) v = w ↔ bits w n m = 0 ∧ bits w 0 n = v := by
  rw [zext_eq_zero_append, append_eq_iff]

end

theorem packNibbles_eq_append (hi lo : U4) : packNibbles hi lo = hi ++ lo :=
  calc packNibbles hi lo
    _ = zext 8 (hi ++ lo) := BitVec.setWidth_append_eq_shiftLeft_setWidth_or.symm
    _ = hi ++ lo := BitVec.setWidth_eq _

theorem packNibbles_eq_iff {hi lo : U4} {b : Byte} : packNibbles hi lo = b ↔ bits b 4 4 = hi ∧ bits b 0 4 = lo := by
  rw [packNibbles_eq_append, append_eq_iff]

@[simp] theorem bits_packNibbles_high (hi lo : U4) : bits (packNibbles hi lo) 4 4 = hi :=
  (packNibbles_eq_iff.mp rfl).1

@[simp] theorem bits_packNibbles_low (hi lo : U4) : bits (packNibbles hi lo) 0 4 = lo :=
  (packNibbles_eq_iff.mp rfl).2

theorem toNat_packNibbles (hi lo : U4) : (packNibbles hi lo).toNat = 16 * hi.toNat + lo.toNat := by
  rw [packNibbles_eq_append]
  exact toNat_append_eq_add hi lo

/-- Settles O24: each byte is two nibbles. -/
theorem envelopePayloadBytes : Obligations.EnvelopePayloadBytes := by
  refine ⟨fun e => ⟨_, _, rfl, ?_⟩, by decide⟩
  simp [toNat_packNibbles]

/-! ### The control byte (R71, R142) -/

/-- The high nibble of a control byte: one bit, at the place of the shape's code (R142). -/
def shapeNibble (s : Shape) : U4 := BitVec.twoPow 4 (shapeCode s)

theorem shapeBits_eq_append (s : Shape) : shapeBits s = shapeNibble s ++ (0 : U4) := by
  cases s <;> rfl

theorem shapeCode_lt (s : Shape) : shapeCode s < 4 := by
  cases s <;> decide

theorem shapeNibble_injective : Function.Injective shapeNibble := fun s t h =>
  shapeCode_injective <| by
    have hpow := congrArg BitVec.toNat h
    rw [shapeNibble, shapeNibble, BitVec.toNat_twoPow_of_lt (shapeCode_lt s),
      BitVec.toNat_twoPow_of_lt (shapeCode_lt t)] at hpow
    exact Nat.pow_right_injective le_rfl hpow

/-- A control byte is two nibbles too: the shape's bit over the flags. -/
theorem encControl_eq_packNibbles (c : Control) : encControl c = packNibbles (shapeNibble c.shape) c.flags := by
  have hflags : zext 8 c.flags = (0 : U4) ++ c.flags := zext_eq_zero_append c.flags
  rw [encControl, shapeBits_eq_append, hflags, BitVec.or_append, packNibbles_eq_append]
  exact congrArg₂ (· ++ ·) BitVec.or_zero BitVec.zero_or

/-- Bit `4 + k` of a control byte is set for the shape of code `k` alone. -/
theorem getLsbD_encControl {c : Control} {s : Shape} :
    (encControl c).getLsbD (4 + shapeCode s) = true ↔ c.shape = s := by
  rw [encControl_eq_packNibbles, packNibbles_eq_append, BitVec.getLsbD_append, if_neg (by omega), Nat.add_sub_cancel_left,
    shapeNibble, BitVec.getLsbD_twoPow]
  simp [shapeCode_lt, shapeCode_injective.eq_iff]

theorem toNat_encControl (c : Control) : (encControl c).toNat = 2 ^ (4 + shapeCode c.shape) + c.flags.toNat := by
  rw [encControl_eq_packNibbles, toNat_packNibbles, shapeNibble, BitVec.toNat_twoPow_of_lt (shapeCode_lt _), Nat.pow_add]

/-- Both nibbles can be read back, so the byte determines the control. -/
theorem encControl_injective : Function.Injective encControl := by
  rintro ⟨s, f⟩ ⟨t, g⟩ h
  simp only [encControl_eq_packNibbles] at h
  obtain ⟨hshape, hflags⟩ := packNibbles_eq_iff.mp h
  rw [bits_packNibbles_high] at hshape
  rw [bits_packNibbles_low] at hflags
  rw [shapeNibble_injective hshape, hflags]

/-- Settles O25: the shape's bits by `getLsbD_encControl` at the codes 3 to 0, the number by `toNat_encControl`. -/
theorem controlPayloadByte : Obligations.ControlPayloadByte := by
  refine ⟨fun c => ⟨?_, getLsbD_encControl (s := .noise), getLsbD_encControl (s := .square),
    getLsbD_encControl (s := .sawtooth), getLsbD_encControl (s := .triangle), toNat_encControl c, ?_⟩,
    fun c d h => encControl_injective h, by decide⟩
  · rw [encControl_eq_packNibbles, bits_packNibbles_low]
  · have hbit : 2 ^ 4 ≤ 2 ^ (4 + shapeCode c.shape) := Nat.pow_le_pow_right Nat.two_pos (Nat.le_add_right ..)
    rw [toNat_encControl]
    exact hbit.trans (Nat.le_add_right ..)

/-! ### The voice and the filter payload (R72, R73, R143, R144) -/

/-- The frequency and the pulse width are the first four bytes of a voice. -/
theorem take_encVoice (x : Voice) :
    (encVoice x).take 4 = [bits x.freq 0 8, bits x.freq 8 8, bits x.pw 0 8, zext 8 (bits x.pw 8 4)] := rfl

/-- The frequency is the first two (R31, R32). -/
theorem take_two_encVoice (x : Voice) : (encVoice x).take 2 = [bits x.freq 0 8, bits x.freq 8 8] := rfl

/-- The cutoff is the first two bytes of the filter (R38, R39). -/
theorem take_encFilter (f : Filter) : (encFilter f).take 2 = [zext 8 (bits f.cutoff 0 3), bits f.cutoff 3 8] := rfl

/-- The mode set and the volume are the last one (R41, R146). -/
theorem drop_encFilter (f : Filter) : (encFilter f).drop 3 = [packNibbles f.mode f.vol] := rfl

/-- Settles O26: both numbers are their parts by `toNat_bits_add`, the high byte of the pulse width zero-extended. -/
theorem voicePayloadBytes : Obligations.VoicePayloadBytes := by
  refine ⟨fun x => ⟨_, _, _, _, _, _, rfl, rfl, toNat_bits_add (m := 8) (n := 8) x.freq, ?_,
    extractLsb'_zext_eq_zero _ le_rfl⟩, fun x hfreq hpw => ?_, fun x hfreq => ?_, fun x hfreq => ?_, fun x hfreq => ?_,
    by decide⟩
  · have hhigh : (zext 8 (bits x.pw 8 4)).toNat = (bits x.pw 8 4).toNat := BitVec.toNat_setWidth_of_le (by decide)
    rw [hhigh]
    exact toNat_bits_add (m := 4) (n := 8) x.pw
  · rw [take_encVoice, hfreq, hpw]; decide
  · rw [take_two_encVoice, hfreq]; decide
  · rw [take_two_encVoice, hfreq]; decide
  · rw [take_two_encVoice, hfreq]; decide

/-- Settles O27: the cutoff is its parts by `toNat_bits_add`, the low one zero-extended; the other bytes are nibbles. -/
theorem filterPayloadBytes : Obligations.FilterPayloadBytes := by
  refine ⟨fun f => ⟨_, _, _, _, rfl, extractLsb'_zext_eq_zero _ le_rfl, ?_, bits_packNibbles_high ..,
    bits_packNibbles_low .., bits_packNibbles_high .., bits_packNibbles_low ..⟩, fun f hcut => ?_, fun f hcut => ?_,
    fun f hcut => ?_, fun f hmode hvol => ?_, fun f hmode hvol => ?_, by decide⟩
  · have hlow : (zext 8 (bits f.cutoff 0 3)).toNat = (bits f.cutoff 0 3).toNat := BitVec.toNat_setWidth_of_le (by decide)
    rw [hlow]
    exact toNat_bits_add (m := 8) (n := 3) f.cutoff
  · rw [take_encFilter, hcut]; decide
  · rw [take_encFilter, hcut]; decide
  · rw [take_encFilter, hcut]; decide
  · rw [drop_encFilter, hmode, hvol]; decide
  · rw [drop_encFilter, hmode, hvol]; decide

/-! ### The decoders (R147) -/

theorem decEnvelope_eq_some_iff {e : Envelope} {p : List Byte} : decEnvelope p = some e ↔ encEnvelope e = p := by
  obtain ⟨attack, decay, sustain, release⟩ := e
  unfold decEnvelope
  split
  next b0 b1 => simp [encEnvelope, packNibbles_eq_iff, and_assoc]
  next hlen => exact iff_of_false (by simp) fun h => hlen _ _ h.symm

/-- `dec_shape` compares the byte under its mask with the shape's bits. -/
theorem decShape_eq_some_iff_shapeBits {s : Shape} {b : Byte} : decShape b = some s ↔ shapeBits s = b &&& 0xF0 := by
  constructor
  · intro h
    unfold decShape at h
    split at h <;> cases h <;> exact BitVec.eq_of_toNat_eq (Eq.symm ‹_›)
  · intro h
    rw [decShape, ← h]
    cases s <;> rfl

theorem and_highNibbleMask (b : Byte) : b &&& 0xF0 = bits b 4 4 ++ (0 : U4) := by
  have hb : b = bits b 4 4 ++ bits b 0 4 := (BitVec.extractLsb'_append_extractLsb' (w := 4) (len := 4)).symm
  have hmask : (0xF0 : Byte) = BitVec.allOnes 4 ++ (0 : U4) := rfl
  conv_lhs => rw [hb, hmask, BitVec.and_append]
  exact congrArg₂ (· ++ ·) BitVec.and_allOnes BitVec.and_zero

theorem decShape_eq_some_iff {s : Shape} {b : Byte} : decShape b = some s ↔ bits b 4 4 = shapeNibble s := by
  rw [decShape_eq_some_iff_shapeBits, shapeBits_eq_append, and_highNibbleMask, BitVec.append_left_inj, eq_comm]

theorem decControl_eq_some_iff {c : Control} {b : Byte} : decControl b = some c ↔ encControl c = b := by
  obtain ⟨shape, flags⟩ := c
  simp [encControl_eq_packNibbles, packNibbles_eq_iff, decControl, decShape_eq_some_iff]

/-- A payload is that of `x` when its bytes, field by field, are: the frequency, the pulse width, which leaves bits 7:4 of
byte 3 zero, the control and the envelope. -/
theorem encVoice_eq_iff {x : Voice} {b0 b1 b2 b3 b4 b5 b6 : Byte} :
    encVoice x = [b0, b1, b2, b3, b4, b5, b6] ↔ b1 ++ b0 = x.freq ∧ (bits b3 4 4 = 0 ∧ bits b3 0 4 ++ b2 = x.pw) ∧
      encControl x.ctrl = b4 ∧ encEnvelope x.env = [b5, b6] := by
  have hhigh : zext 8 (bits x.pw 8 4) = b3 ↔ bits b3 4 4 = 0 ∧ bits b3 0 4 = bits x.pw 8 4 := zext_eq_iff
  have hfreq : b1 ++ b0 = x.freq ↔ bits x.freq 8 8 = b1 ∧ bits x.freq 0 8 = b0 := append_eq_iff
  have hpw : bits b3 0 4 ++ b2 = x.pw ↔ bits x.pw 8 4 = bits b3 0 4 ∧ bits x.pw 0 8 = b2 := append_eq_iff
  rw [hfreq, hpw]
  simp only [encVoice, List.cons_append, List.nil_append, List.cons.injEq, hhigh]
  grind

/-- The two checks of `dec_voice` are what `encVoice_eq_iff` asks beyond the fields. -/
theorem decVoice_eq_some_iff {x : Voice} {p : List Byte} : decVoice p = some x ↔ encVoice x = p := by
  unfold decVoice
  split
  next b0 b1 b2 b3 b4 b5 b6 =>
    rw [encVoice_eq_iff, ← decControl_eq_some_iff, ← decEnvelope_eq_some_iff]
    obtain ⟨freq, pw, env, ctrl⟩ := x
    split_ifs with hzero
    · cases decControl b4 with
      | none => simp
      | some c => simp [decEnvelope, hzero]; grind
    · exact iff_of_false (by simp) fun ⟨_, ⟨hb3, _⟩, _⟩ => hzero hb3
  next hlen => exact iff_of_false (by simp) fun h => hlen _ _ _ _ _ _ _ h.symm

theorem encFilter_eq_iff {f : Filter} {b0 b1 b2 b3 : Byte} :
    encFilter f = [b0, b1, b2, b3] ↔ (bits b0 3 5 = 0 ∧ b1 ++ bits b0 0 3 = f.cutoff) ∧
      (bits b2 4 4 = f.res ∧ bits b2 0 4 = f.targets) ∧ bits b3 4 4 = f.mode ∧ bits b3 0 4 = f.vol := by
  have hlow : zext 8 (bits f.cutoff 0 3) = b0 ↔ bits b0 3 5 = 0 ∧ bits b0 0 3 = bits f.cutoff 0 3 := zext_eq_iff
  have hcut : b1 ++ bits b0 0 3 = f.cutoff ↔ bits f.cutoff 3 8 = b1 ∧ bits f.cutoff 0 3 = bits b0 0 3 :=
    append_eq_iff
  rw [hcut]
  simp only [encFilter, List.cons.injEq, hlow, packNibbles_eq_iff]
  grind

theorem decFilter_eq_some_iff {f : Filter} {p : List Byte} : decFilter p = some f ↔ encFilter f = p := by
  unfold decFilter
  split
  next b0 b1 b2 b3 =>
    rw [encFilter_eq_iff]
    obtain ⟨cutoff, res, vol, mode, targets⟩ := f
    split_ifs with hzero
    · simp [hzero]; grind
    · exact iff_of_false (by simp) fun ⟨⟨hb0, _⟩, _⟩ => hzero hb0
  next hlen => exact iff_of_false (by simp) fun h => hlen _ _ _ _ h.symm

/-- Settles O28, decoder by decoder. -/
theorem payloadDecodersInvertEncoders : Obligations.PayloadDecodersInvertEncoders :=
  ⟨fun _ _ => decEnvelope_eq_some_iff, fun _ _ => decControl_eq_some_iff, fun _ _ => decVoice_eq_some_iff,
    fun _ _ => decFilter_eq_some_iff⟩

/-! ### Decoding the image (R147, R186, R188) -/

/-- Looking up every entry of a list gives the list. -/
theorem mapM_range_eq_some {α : Type} {l : List α} {f : Nat → Option α} (h : ∀ i < l.length, f i = l[i]?) :
    (List.range l.length).mapM f = some l := by
  induction l generalizing f with
  | nil => rfl
  | cons a l ih =>
    have hhead : f 0 = some a := h 0 (Nat.zero_lt_succ _)
    have htail : (List.range l.length).mapM (f ∘ Nat.succ) = some l := ih fun i hi => h (i + 1) (Nat.succ_lt_succ hi)
    rw [List.length_cons, List.range_succ_eq_map, List.mapM_cons, List.mapM_map, hhead, htail]
    rfl

/-- After the calls of a group write, the group's registers read the payload of `S` as it stood (R56). -/
theorem image_afterCalls_groupEvents (s : State) (g : Group) :
    (List.range (payloadOf s.chipState g).length).mapM
      (fun i => Memory.read (indexOf g i) (s.afterCalls (groupEvents s.cfg g (payloadOf s.chipState g))).chip) =
      some (payloadOf s.chipState g) :=
  mapM_range_eq_some fun i hi => by
    rw [State.afterCalls, read_groupEvents _ _ (base_add_payload_le ..), indexOf, readOver_add hi]

/-- Settles O45: the image is the payload, and the decoders invert the encoders. -/
theorem writtenImageDecodesToTheHeldState : Obligations.WrittenImageDecodesToTheHeldState := fun s =>
  ⟨fun ix => ⟨_, _, exec_writeVoice_eq_afterCalls ix s, image_afterCalls_groupEvents s (.voice ix),
      decVoice_eq_some_iff.mpr rfl⟩,
    _, _, exec_writeFilter_eq_afterCalls s, image_afterCalls_groupEvents s .filter, decFilter_eq_some_iff.mpr rfl⟩

end Sys2Proof.Machine

/-! ### The address map (R160 to R166)

The owner of an index is the inverse of `index_of`, and the observer that of `wire_addr` (R166). That the groups are
disjoint and cover the registers (R162) says that an index has at most one owner, and that the registers have one.
-/

namespace Sys2Proof.Machine

theorem length_payloadOf_voice (S : ChipState) (v : VoiceIx) : (payloadOf S (.voice v)).length = 7 := rfl

theorem length_payloadOf_filter (S : ChipState) : (payloadOf S .filter).length = 4 := rfl

theorem base_voice (v : VoiceIx) : base (.voice v) = voiceNumber v * 7 := rfl

theorem base_filter : base .filter = 21 := rfl

theorem indexOf_lt (S : ChipState) {g : Group} {i : Nat} (hi : i < (payloadOf S g).length) : indexOf g i < nRegs := by
  have hend := base_add_payload_le S g
  rw [indexOf]
  omega

/-- The byte that `ownerOf` names is a byte of its group and stands at the index asked for (R166). -/
theorem byte_of_ownerOf (S : ChipState) {k : Nat} {g : Group} {i : Nat} (h : ownerOf k = some (g, i)) :
    i < (payloadOf S g).length ∧ indexOf g i = k := by
  unfold ownerOf at h
  split_ifs at h <;> cases h <;>
    simp only [length_payloadOf_voice, length_payloadOf_filter, indexOf, base_voice, base_filter, voiceNumber] <;> omega

/-- Each byte of a group is the one that its index names (R162, R166). -/
theorem ownerOf_indexOf (S : ChipState) {g : Group} {i : Nat} (hi : i < (payloadOf S g).length) :
    ownerOf (indexOf g i) = some (g, i) := by
  cases g with
  | voice v =>
    rw [length_payloadOf_voice] at hi
    cases v <;> simp only [ownerOf, indexOf, base_voice, voiceNumber] <;> grind
  | filter =>
    rw [length_payloadOf_filter] at hi
    simp only [ownerOf, indexOf, base_filter]
    grind

theorem ownerOf_eq_some_iff (S : ChipState) {k : Nat} {g : Group} {i : Nat} :
    ownerOf k = some (g, i) ↔ i < (payloadOf S g).length ∧ indexOf g i = k :=
  ⟨byte_of_ownerOf S, fun ⟨hi, hk⟩ => hk ▸ ownerOf_indexOf S hi⟩

/-- Every register has an owner (R166). -/
theorem exists_ownerOf_of_lt {k : Nat} (hk : k < nRegs) : ∃ g i, ownerOf k = some (g, i) := by
  have hk : k < 25 := hk
  unfold ownerOf
  split_ifs <;> exact ⟨_, _, rfl⟩

/-- The groups' index ranges are disjoint (R162): an index has one owner. -/
theorem indexOf_inj (S : ChipState) {g h : Group} {i j : Nat} (hi : i < (payloadOf S g).length)
    (hj : j < (payloadOf S h).length) (heq : indexOf g i = indexOf h j) : g = h ∧ i = j := by
  have howner : some (g, i) = some (h, j) := by
    rw [← ownerOf_indexOf S hi, heq, ownerOf_indexOf S hj]
  simpa using howner

/-- The groups together cover the registers and nothing else (R162). -/
theorem lt_nRegs_iff_exists_indexOf (S : ChipState) {k : Nat} :
    k < nRegs ↔ ∃ g i, i < (payloadOf S g).length ∧ indexOf g i = k := by
  constructor
  · intro hk
    obtain ⟨g, i, howner⟩ := exists_ownerOf_of_lt hk
    exact ⟨g, i, byte_of_ownerOf S howner⟩
  · rintro ⟨g, i, hi, rfl⟩
    exact indexOf_lt S hi

/-- Settles O29: disjointness and coverage by the owner of an index. -/
theorem groupsCoverTheRegisters : Obligations.GroupsCoverTheRegisters :=
  ⟨base_voice, rfl, rfl, rfl, base_filter, fun _ _ => rfl, rfl, fun S _ _ _ _ => indexOf_inj S,
    fun S _ => lt_nRegs_iff_exists_indexOf S⟩

/-- Under `SHIFTED` bit 0 is the reset flag (R166). -/
theorem observe_shifted_eq_resetSignal_iff {a : Byte} : observe .shifted a = .resetSignal ↔ a.getLsbD 0 = true :=
  ⟨fun h => (observe_resetSignal h).2, fun hbit => by simp only [observe, if_pos hbit]⟩

theorem observe_eq_register_iff {conv : Conv} {a : Byte} {k : Nat} :
    observe conv a = .register k ↔ k < nRegs ∧ wireAddr conv k = a :=
  ⟨fun h => ⟨observe_register_lt h, wireAddr_of_observe h⟩, fun ⟨hk, ha⟩ => ha ▸ observe_wireAddr conv hk⟩

/-- A register's address byte has the reset flag clear, since the observer reads a register from it. -/
theorem getLsbD_zero_wireAddr_shifted {k : Nat} (hk : k < nRegs) : (wireAddr .shifted k).getLsbD 0 = false := by
  have hne : observe .shifted (wireAddr .shifted k) ≠ .resetSignal := by simp [observe_wireAddr .shifted hk]
  rwa [Ne, observe_shifted_eq_resetSignal_iff, Bool.not_eq_true] at hne

/-- Settles O30, from the values of the two address bytes. -/
theorem wireAddressOfEveryRegister : Obligations.WireAddressOfEveryRegister := by
  refine ⟨fun k hk => ?register, fun k hk => ?neighbour, fun v i hi => ?voice⟩
  case register =>
    have hlinear := wireAddr_linear_toNat hk
    have hshifted := wireAddr_shifted_toNat hk
    exact ⟨hlinear, by omega, by rw [hshifted, Nat.shiftLeft_eq]; omega, getLsbD_zero_wireAddr_shifted hk, by omega⟩
  case neighbour =>
    have hnext : k + 1 < nRegs := Nat.succ_lt_succ hk
    rw [wireAddr_shifted_toNat hnext, wireAddr_shifted_toNat (Nat.lt_of_succ_lt hnext), Nat.mul_succ]
  case voice =>
    have hidx : indexOf (.voice v) i < nRegs := indexOf_lt ChipState.reset hi
    rw [wireAddr_shifted_toNat hidx, indexOf, base_voice, Nat.mul_comm 2, Nat.mul_comm 7]

/-- Settles O31: the observer inverts the address map, and `ownerOf` inverts `index_of`. -/
theorem observerReadsBackTheWire : Obligations.ObserverReadsBackTheWire :=
  ⟨fun _ _ _ => observe_eq_register_iff, fun _ => observe_shifted_eq_resetSignal_iff, observe_linear_ne_reset,
    observe_resetAddr, fun S _ _ _ => ownerOf_eq_some_iff S⟩

end Sys2Proof.Machine

/-! ### The run invariant (R27, R181, R199)

Between commands a step is a whole command (`step_effect`), and there are two kinds of them: a state update makes no
call, so that all that `Inv` computes from the trace stands still; any other makes calls that keep the discipline, and
the image and the records follow them.
-/

namespace Sys2Proof.Machine

/-- A state update is over when it has returned its result: the counter moves on with the results. -/
theorem Inv.update {s : State} (h : Inv s) (S : ChipState) (r : Result) :
    Inv (((s.setChipState S).deliver r).setPc (s.pc + 1)) where
  cfgWf := h.cfgWf
  bus := h.bus
  phase := h.phase
  due := h.due
  cs := h.cs
  rst := h.rst
  chip := h.chip
  chipWf := h.chipWf
  results := by simp [h.results]

/-- Calls that keep the discipline keep everything that is computed from the trace. -/
theorem Inv.calls {s u : State} {es : List Event} (h : Inv s) (hu : Emits s u es) (hbus : BusSafe s.cfg es)
    (hne : es ≠ []) (hphase : u.phase = .idle) (hdue : u.due = none) (r : Result) :
    Inv ((u.deliver r).setPc (s.pc + 1)) where
  cfgWf := hu.cfg ▸ h.cfgWf
  bus := by
    simp only [State.setPc_cfg, State.deliver_cfg, State.setPc_trace, State.deliver_trace, hu.cfg, hu.trace]
    exact h.bus.append hbus
  phase := by simp [hu.trace, hne, hphase]
  due := hdue
  cs := by simp [hu.cs, hu.trace, csAfter_append, h.cs]
  rst := by simp [hu.rst, hu.trace, rstAfter_append, h.rst]
  chip := by simp [hu.chip, hu.cfg, hu.trace, imageAfter_append, h.chip]
  chipWf := by
    simp only [State.setPc_chip, State.deliver_chip, hu.chip]
    exact wf_imageAfter s.cfg.conv es h.chipWf
  results := by simp [hu.results, h.results]

/-- Settles O50: a run stands between commands, so the step is a command, and either kind keeps the invariant. -/
theorem everyStepKeepsTheRunInvariant : Obligations.EveryStepKeepsTheRunInvariant := by
  intro s t h hstep
  obtain ⟨-, ⟨-, -, u, ⟨r, hu⟩, rfl⟩ | ⟨hframe, -⟩⟩ := step_effect hstep
  · obtain ⟨S, rfl⟩ | ⟨v, es, hv, hbus, hne, hphase, hdue, rfl⟩ := hu
    · exact h.update S r
    · exact h.calls hv hbus hne hphase hdue r
  · exact absurd h.due hframe

end Sys2Proof.Machine

/-! ### Who changes `S` (R20, R186, R198) -/

namespace Sys2Proof.Machine

/-- A command that makes calls reads `S` and leaves it as it was. -/
theorem chipState_of_finish {s u t : State} {es : List Event} (hu : Emits s u es) (h : finish s u = .next t) :
    t.chipState = s.chipState := by
  cases h
  exact hu.chipState

/-- Of the commands only those that name a field of `S` write one. -/
theorem chipState_of_command {i : Instr} {s t : State} (hi : i.conv? = none) (hset : setField? i = none)
    (h : exec i s = .next t) : t.chipState = s.chipState := by
  cases i with
  | reset => exact chipState_of_finish (emits_resetChip (s.setPhase .resetting)).ofSetPhase.endCommand h
  | writeVoice v =>
    simp only [exec, execWriteVoice] at h
    cases hv : voiceOf v with
    | ok ix =>
      rw [hv] at h
      exact chipState_of_finish (emits_sendGroup (.voice ix) s) h
    | error e =>
      rw [hv] at h
      cases h
      rfl
  | writeFilter => exact chipState_of_finish (emits_sendGroup .filter s) h
  | writeAllVoices => exact chipState_of_finish (emits_sendVoices s) h
  | initializeChip => exact chipState_of_finish (emits_initialize s) h
  | setvFreq | setvPw | setvAttack | setvDecay | setvSustain | setvRelease | setvShape | setvCflags | setvCflagsAdd
  | setvCflagsRemove | setfCutoff | setfRes | setfVol | setfMode | setfModeAdd | setfModeRemove | setfTargets
  | setfTargetsAdd | setfTargetsRemove => cases hset
  | _ => cases hi

/-- Settles O54: a frame row is one call, a command that is no state update makes calls, and no call changes `S`. -/
theorem onlyStateUpdatesChangeS : Obligations.OnlyStateUpdatesChangeS := by
  intro i s t hset h
  cases hi : i.conv? with
  | none => exact chipState_of_command hi hset h
  | some conv =>
    have hframe := exec_effect h
    rw [Effect, hi] at hframe
    obtain ⟨es, he⟩ := hframe.emits
    exact he.chipState

end Sys2Proof.Machine

/-! ### The image after the write commands (R52, R56, R186 to R192)

After any number of group writes of one `S`, a register of a group that was written reads its payload byte, and every
other register reads as before.
-/

namespace Sys2Proof.Machine

theorem readOver_of_ne {idx k : Nat} {p : List Byte} (h : ∀ i, i < p.length → k ≠ idx + i) (m : List Host.Cell) :
    readOver idx p m k = Memory.read k m := by
  refine if_neg fun ⟨hle, hlt⟩ => h (k - idx) ?_ ?_ <;> omega

theorem State.afterCalls_chip (s : State) (es : List Event) :
    (s.afterCalls es).chip = imageAfter s.cfg.conv s.chip es := rfl

theorem State.afterCalls_cs (s : State) (es : List Event) : (s.afterCalls es).cs = csAfter s.cs es := rfl

theorem State.afterCalls_rst (s : State) (es : List Event) : (s.afterCalls es).rst = rstAfter s.rst es := rfl

/-- What the calls of one group write leave on the lines and in the image (R56, R184). -/
theorem afterCalls_groupEvents (s : State) (g : Group) {p : List Byte} (hp : p = payloadOf s.chipState g) :
    (s.afterCalls (groupEvents s.cfg g p)).cs = .driven .high ∧
      (s.afterCalls (groupEvents s.cfg g p)).rst = s.rst ∧
      (∀ i, i < p.length → Memory.read (indexOf g i) (s.afterCalls (groupEvents s.cfg g p)).chip = p[i]?) ∧
      ∀ k, (∀ i, i < p.length → k ≠ indexOf g i) →
        Memory.read k (s.afterCalls (groupEvents s.cfg g p)).chip = Memory.read k s.chip := by
  subst hp
  have hread (k : Nat) := read_groupEvents s.cfg g (base_add_payload_le s.chipState g) s.chip k
  refine ⟨csAfter_groupEvents s.cfg g (payloadOf_ne_nil s.chipState g) s.cs, rstAfter_groupEvents ..,
    fun i hi => ?_, fun k hk => ?_⟩
  · rw [State.afterCalls_chip, hread, indexOf, readOver_add hi]
  · rw [State.afterCalls_chip, hread, readOver_of_ne hk]

/-- Settles O34: one group write; voice index 3 fails the check of the operand. -/
theorem writeVoiceSendsItsSevenRegisters : Obligations.WriteVoiceSendsItsSevenRegisters := fun s =>
  ⟨fun ix => ⟨exec_writeVoice_eq_afterCalls ix s, afterCalls_groupEvents s (.voice ix) rfl⟩, rfl⟩

/-- Settles O35: one group write. -/
theorem writeFilterSendsItsFourRegisters : Obligations.WriteFilterSendsItsFourRegisters := fun s =>
  ⟨exec_writeFilter_eq_afterCalls s, afterCalls_groupEvents s .filter rfl⟩

/-- The calls of the group writes `gs`, one after another, each of the payload of `S`. -/
def groupsEvents (c : Config) (S : ChipState) (gs : List Group) : List Event :=
  gs.flatMap fun g => groupEvents c g (payloadOf S g)

theorem groupsEvents_cons (c : Config) (S : ChipState) (g : Group) (gs : List Group) :
    groupsEvents c S (g :: gs) = groupEvents c g (payloadOf S g) ++ groupsEvents c S gs :=
  List.flatMap_cons

/-- `WRITE_ALL_VOICES` (R190). -/
theorem voicesEvents_eq (c : Config) (S : ChipState) :
    voicesEvents c S = groupsEvents c S [.voice .v0, .voice .v1, .voice .v2] := by
  simp [voicesEvents, groupsEvents, payloadOf, ChipState.voice]

/-- `INITIALIZE` (R192). -/
theorem initializeEvents_eq (c : Config) (S : ChipState) :
    initializeEvents c S = groupsEvents c S [.voice .v0, .voice .v1, .voice .v2, .filter] := by
  simp [initializeEvents, voicesEvents, groupsEvents, payloadOf, ChipState.voice]

/-- Register `k` belongs to one of the groups `gs` (R166). -/
def OwnedBy (gs : List Group) (k : Nat) : Prop := ∃ g ∈ gs, ∃ i, ownerOf k = some (g, i)

theorem ownedBy_cons {g : Group} {gs : List Group} {k : Nat} :
    OwnedBy (g :: gs) k ↔ (∃ i, ownerOf k = some (g, i)) ∨ OwnedBy gs k := by
  simp [OwnedBy]

/-- A register of the group reads the payload byte of its owner, after the group is written. -/
theorem read_groupEvents_of_owner (c : Config) {S : ChipState} {g : Group} {k i : Nat} (h : ownerOf k = some (g, i))
    (m : List Host.Cell) :
    Memory.read k (imageAfter c.conv m (groupEvents c g (payloadOf S g))) = imageByte S k := by
  obtain ⟨hi, hk⟩ := byte_of_ownerOf S h
  rw [read_groupEvents c g (base_add_payload_le S g), ← hk, indexOf, readOver_add hi, ← indexOf, hk, imageByte, h]

/-- A register of another group, or none, reads as before. -/
theorem read_groupEvents_of_not_owner (c : Config) {S : ChipState} {g : Group} {k : Nat}
    (h : ¬ ∃ i, ownerOf k = some (g, i)) (m : List Host.Cell) :
    Memory.read k (imageAfter c.conv m (groupEvents c g (payloadOf S g))) = Memory.read k m := by
  rw [read_groupEvents c g (base_add_payload_le S g)]
  refine readOver_of_ne (fun i hi hk => h ⟨i, ?_⟩) m
  rw [hk, ← indexOf, ownerOf_indexOf S hi]

/-- Registers no group write of `gs` reaches read as before. -/
theorem read_groupsEvents_of_not_owned (c : Config) {S : ChipState} {gs : List Group} {k : Nat} (h : ¬ OwnedBy gs k)
    (m : List Host.Cell) : Memory.read k (imageAfter c.conv m (groupsEvents c S gs)) = Memory.read k m := by
  induction gs generalizing m with
  | nil => rfl
  | cons g gs ih =>
    rw [ownedBy_cons, not_or] at h
    rw [groupsEvents_cons, imageAfter_append, ih h.2, read_groupEvents_of_not_owner c h.1]

/-- Registers of the groups written read their payload byte; a second write of a group puts the same bytes there. -/
theorem read_groupsEvents_of_owned (c : Config) {S : ChipState} {gs : List Group} {k : Nat} (h : OwnedBy gs k)
    (m : List Host.Cell) : Memory.read k (imageAfter c.conv m (groupsEvents c S gs)) = imageByte S k := by
  induction gs generalizing m with
  | nil => simp [OwnedBy] at h
  | cons g gs ih =>
    rw [groupsEvents_cons, imageAfter_append]
    by_cases hlater : OwnedBy gs k
    · exact ih hlater _
    · obtain ⟨i, hi⟩ := (ownedBy_cons.mp h).resolve_right hlater
      rw [read_groupsEvents_of_not_owned c hlater, read_groupEvents_of_owner c hi]

theorem rstAfter_groupsEvents (c : Config) (S : ChipState) (gs : List Group) (p : PinState) :
    rstAfter p (groupsEvents c S gs) = p := by
  induction gs with
  | nil => rfl
  | cons g gs ih => rw [groupsEvents_cons, rstAfter_append, rstAfter_groupEvents, ih]

/-- Chip-select is high once a group was written, and stays so (R199 (d)). -/
theorem csAfter_groupsEvents (c : Config) (S : ChipState) (g : Group) (gs : List Group) (p : PinState) :
    csAfter p (groupsEvents c S (g :: gs)) = .driven .high := by
  induction gs generalizing g p with
  | nil => rw [groupsEvents_cons, csAfter_append, csAfter_groupEvents c g (payloadOf_ne_nil S g)]; rfl
  | cons h gs ih => rw [groupsEvents_cons, csAfter_append, ih]

theorem ownedBy_voices_iff {k : Nat} : OwnedBy [.voice .v0, .voice .v1, .voice .v2] k ↔ k < 21 := by
  simp only [OwnedBy, List.exists_mem_cons_iff, ownerOf]
  split_ifs <;> simp <;> omega

theorem ownedBy_all_iff {k : Nat} : OwnedBy [.voice .v0, .voice .v1, .voice .v2, .filter] k ↔ k < 25 := by
  simp only [OwnedBy, List.exists_mem_cons_iff, ownerOf]
  split_ifs <;> simp <;> omega

/-- Settles O36: the registers of the three voices are those below 21. -/
theorem writeAllVoicesSendsTwentyOneRegisters : Obligations.WriteAllVoicesSendsTwentyOneRegisters := by
  intro s
  refine ⟨exec_writeAllVoices_eq_afterCalls s, ?_⟩
  simp only [State.afterCalls_cs, State.afterCalls_rst, State.afterCalls_chip, voicesEvents_eq]
  exact ⟨csAfter_groupsEvents .., rstAfter_groupsEvents ..,
    fun k hk => read_groupsEvents_of_owned s.cfg (ownedBy_voices_iff.mpr hk) s.chip,
    fun k hk => read_groupsEvents_of_not_owned s.cfg (mt ownedBy_voices_iff.mp (Nat.not_lt.mpr hk)) s.chip⟩

/-- The payloads in the order of the groups are the image, register by register (R52). -/
def imageBytes (S : ChipState) : List Byte := encVoice S.v0 ++ encVoice S.v1 ++ encVoice S.v2 ++ encFilter S.filter

theorem length_imageBytes (S : ChipState) : (imageBytes S).length = 25 := rfl

theorem getElem?_imageBytes (S : ChipState) (k : Nat) : (imageBytes S)[k]? = imageByte S k := by
  by_cases hk : k < 25
  · interval_cases k <;> rfl
  · rw [List.getElem?_eq_none (by simpa [length_imageBytes] using hk), imageByte, ownerOf]
    grind

/-- Settles O37: every register belongs to a group. -/
theorem initializeMakesTheImageMatchTheState : Obligations.InitializeMakesTheImageMatchTheState := by
  intro s
  have hread {k : Nat} (hk : k < 25) :=
    read_groupsEvents_of_owned (S := s.chipState) s.cfg (ownedBy_all_iff.mpr hk) s.chip
  have hkeep {k : Nat} (hk : 25 ≤ k) :=
    read_groupsEvents_of_not_owned (S := s.chipState) s.cfg (mt ownedBy_all_iff.mp (Nat.not_lt.mpr hk)) s.chip
  refine ⟨exec_initializeChip_eq_afterCalls s, ?_⟩
  simp only [State.afterCalls_cs, State.afterCalls_rst, State.afterCalls_chip, initializeEvents_eq]
  refine ⟨csAfter_groupsEvents .., rstAfter_groupsEvents .., fun k hk => ?known, ?listed, fun k => hkeep⟩
  case known =>
    have hbyte := List.getElem?_eq_getElem (l := imageBytes s.chipState) hk
    rw [getElem?_imageBytes] at hbyte
    exact ⟨_, hbyte, (hread hk).trans hbyte⟩
  case listed =>
    exact mapM_range_eq_some (l := imageBytes s.chipState) fun k hk =>
      (hread hk).trans (getElem?_imageBytes s.chipState k).symm

end Sys2Proof.Machine

/-! ### `RESET` (R195 to R198) -/

namespace Sys2Proof

/-- The constraints of R8, one by one. -/
theorem Config.wf_iff {c : Config} :
    c.wf = true ↔ 10 ≤ c.tResetLine ∧ 12 ≤ c.tResetShifted ∧ c.resetFrameIndex ≤ 127 ∧
      (c.conv = .shifted ∨ c.hasResetLine = true) := by
  simp [Config.wf, and_assoc]

end Sys2Proof

namespace Sys2Proof.Machine

/-- The index of the reset frame fits the seven bits of the address byte that it has (R8, R164). -/
theorem bits_resetAddr_of_wf {c : Config} (hwf : c.wf = true) :
    (bits (resetAddr c.resetFrameIndex) 1 7).toNat = c.resetFrameIndex := by
  obtain ⟨-, -, hindex, -⟩ := Config.wf_iff.mp hwf
  have hfits : (BitVec.ofNat 7 c.resetFrameIndex).toNat = c.resetFrameIndex := by
    rw [BitVec.toNat_ofNat, Nat.mod_eq_of_lt (by omega)]
  rw [← hfits, bits_resetAddr]

/-- Settles O39: the three calls on the reset line. -/
theorem resetUnderLinearPulsesTheLine : Obligations.ResetUnderLinearPulsesTheLine := by
  intro s hconv
  have hevents : resetEvents s.cfg = resetLineEvents s.cfg := by rw [resetEvents, hconv]
  refine ⟨?_, fun _ => rfl, fun hwf => (Config.wf_iff.mp hwf).1⟩
  rw [exec_reset_eq_afterCalls, hevents]
  rfl

/-- Settles O40: the frame is a reset signal under `SHIFTED`, which makes the image unknown (`Memory.after_reset`). -/
theorem resetUnderShiftedSendsTheResetFrame : Obligations.ResetUnderShiftedSendsTheResetFrame := by
  intro s hconv
  have hevents : resetEvents s.cfg = resetFrameEvents s.cfg s.cfg.resetFrameIndex s.cfg.resetFrameData := by
    rw [resetEvents, hconv]
  have hchip (n : Nat) : imageAfter s.cfg.conv s.chip
      [.cs .low, .tx [resetAddr s.cfg.resetFrameIndex, s.cfg.resetFrameData], .delay n .us, .cs .high] = [] := by
    simp [hconv, Memory.after_reset]
  refine ⟨?_, fun k => ?_, observe_shifted_eq_resetSignal_iff.mp (observe_resetAddr _),
    fun hwf => ⟨(Config.wf_iff.mp hwf).2.1, bits_resetAddr_of_wf hwf⟩⟩
  · rw [exec_reset_eq_afterCalls, hevents, State.afterCalls, resetFrameEvents, hchip]
    rfl
  · rw [State.afterCalls_chip, hchip]
    rfl

end Sys2Proof.Machine

/-! ### What is sent, and how often (R184, R193) -/

namespace Sys2Proof.Machine

theorem sentBytes_append (es fs : List Event) : sentBytes (es ++ fs) = sentBytes es ++ sentBytes fs := by
  induction es with
  | nil => rfl
  | cons e es ih => cases e <;> simp [sentBytes, ih]

theorem sentBytes_settle (c : Config) : sentBytes (settleEvents c) = [] := by
  unfold settleEvents
  split <;> rfl

theorem sentBytes_frameEvents (c : Config) (p : List Byte) (idx : Nat) :
    sentBytes (frameEvents c idx p) = (p.zipIdx idx).flatMap fun x => [wireAddr c.conv x.2, x.1] := by
  induction p generalizing idx with
  | nil => rfl
  | cons d p ih => simp [frameEvents, sentBytes, ih]

theorem sentBytes_registerEvents (c : Config) (p : List Byte) (idx : Nat) :
    sentBytes (registerEvents c idx p) = (p.zipIdx idx).flatMap fun x => [wireAddr c.conv x.2, x.1] := by
  induction p generalizing idx with
  | nil => rfl
  | cons d p ih => simp [registerEvents, writeRegEvents, sentBytes_append, sentBytes_settle, sentBytes, ih]

/-- The framing decides on chip-select and the settle delays alone (R184, decision D2). -/
theorem sentBytes_groupEvents (c : Config) (g : Group) (p : List Byte) :
    sentBytes (groupEvents c g p) = (p.zipIdx (base g)).flatMap fun x => [wireAddr c.conv x.2, x.1] := by
  unfold groupEvents
  cases c.framing with
  | perRegister => exact sentBytes_registerEvents c p (base g)
  | perGroup => simp [sentBytes_append, sentBytes_settle, sentBytes_frameEvents, sentBytes]

/-- Settles O42: the bytes of a group write do not name the framing. -/
theorem framingsSendTheSameBytes : Obligations.FramingsSendTheSameBytes := fun c g p =>
  ⟨sentBytes_groupEvents c g p,
    fun f => (sentBytes_groupEvents { c with framing := f } g p).trans (sentBytes_groupEvents c g p).symm⟩

theorem length_sentBytes_groupEvents (c : Config) (g : Group) (p : List Byte) :
    (sentBytes (groupEvents c g p)).length = 2 * p.length := by
  simp [sentBytes_groupEvents, List.length_flatMap, Nat.mul_comm]

/-- Two bytes for each register (R193). -/
theorem length_sentBytes_initializeEvents (c : Config) (S : ChipState) :
    (sentBytes (initializeEvents c S)).length = 50 := by
  simp [initializeEvents, voicesEvents, sentBytes_append, length_sentBytes_groupEvents, voiceLen, filterLen]

/-- What a chip-select frame adds to the transmissions in it: its two edges and the settle delay (R183, R184). -/
def selectEvents (c : Config) : List Event := [.cs .low, .cs .high] ++ settleEvents c

theorem length_selectEvents (c : Config) : (selectEvents c).length = if 0 < c.tSettle then 3 else 2 := by
  unfold selectEvents settleEvents
  split <;> rfl

/-- The chip-select frames of `INITIALIZE`: one for each register, or one for each group (R193). -/
def initializeFrames : Framing → Nat
  | .perRegister => 25
  | .perGroup => 4

section Counts

variable {c : Config} {q : Event → Bool} {n : Nat}

/-- The settle delay is the only event of `Settle()` (R185). -/
theorem countP_selectEvents (hq : ∀ k u, q (.delay k u) = false) :
    (selectEvents c).countP q = [.cs .low, .cs .high].countP q := by
  unfold selectEvents settleEvents
  split <;> simp [List.countP_cons, hq]

/-! In what follows `q` counts `n` of every transmission, whatever its bytes are. -/

theorem countP_frameEvents (hq : ∀ a d, [Event.tx [a, d]].countP q = n) (p : List Byte) (idx : Nat) :
    (frameEvents c idx p).countP q = p.length * n := by
  induction p generalizing idx with
  | nil => simp [frameEvents]
  | cons d p ih =>
    rw [frameEvents, ← List.singleton_append, List.countP_append, hq, ih, List.length_cons, Nat.succ_mul, Nat.add_comm]

theorem countP_writeRegEvents (hq : ∀ a d, [Event.tx [a, d]].countP q = n) (idx : Nat) (d : Byte) :
    (writeRegEvents c idx d).countP q = n + (selectEvents c).countP q := by
  rw [← hq (wireAddr c.conv idx) d]
  simp only [writeRegEvents, selectEvents, List.countP_append, List.countP_cons, List.countP_nil]
  omega

theorem countP_registerEvents (hq : ∀ a d, [Event.tx [a, d]].countP q = n) (p : List Byte) (idx : Nat) :
    (registerEvents c idx p).countP q = p.length * (n + (selectEvents c).countP q) := by
  induction p generalizing idx with
  | nil => simp [registerEvents]
  | cons d p ih =>
    rw [registerEvents, List.countP_append, countP_writeRegEvents hq, ih, List.length_cons, Nat.succ_mul, Nat.add_comm]

theorem countP_groupEvents_perRegister (hf : c.framing = .perRegister) (hq : ∀ a d, [Event.tx [a, d]].countP q = n)
    (g : Group) (p : List Byte) : (groupEvents c g p).countP q = p.length * (n + (selectEvents c).countP q) := by
  rw [groupEvents, hf, countP_registerEvents hq]

theorem countP_groupEvents_perGroup (hf : c.framing = .perGroup) (hq : ∀ a d, [Event.tx [a, d]].countP q = n)
    (g : Group) (p : List Byte) : (groupEvents c g p).countP q = p.length * n + (selectEvents c).countP q := by
  simp only [groupEvents, hf, selectEvents, List.countP_append, countP_frameEvents hq, List.countP_cons,
    List.countP_nil]
  omega

/-- The calls of `INITIALIZE` are 25 transmissions and its chip-select frames (R193). -/
theorem countP_initializeEvents (hq : ∀ a d, [Event.tx [a, d]].countP q = n) (S : ChipState) :
    (initializeEvents c S).countP q = 25 * n + initializeFrames c.framing * (selectEvents c).countP q := by
  cases hf : c.framing with
  | perRegister =>
    simp only [initializeEvents, voicesEvents, List.countP_append, countP_groupEvents_perRegister hf hq, encVoice_length,
      encFilter_length, voiceLen, filterLen, initializeFrames]
    omega
  | perGroup =>
    simp only [initializeEvents, voicesEvents, List.countP_append, countP_groupEvents_perGroup hf hq, encVoice_length,
      encFilter_length, voiceLen, filterLen, initializeFrames]
    omega

/-- The same without the delays. -/
theorem countP_initializeEvents_of_delay (hq : ∀ a d, [Event.tx [a, d]].countP q = n)
    (hdelay : ∀ k u, q (.delay k u) = false) (S : ChipState) :
    (initializeEvents c S).countP q =
      25 * n + initializeFrames c.framing * [Event.cs .low, .cs .high].countP q := by
  rw [countP_initializeEvents hq, countP_selectEvents hdelay]

end Counts

theorem length_initializeEvents (c : Config) (S : ChipState) :
    (initializeEvents c S).length = 25 + initializeFrames c.framing * if 0 < c.tSettle then 3 else 2 := by
  rw [← List.countP_true, countP_initializeEvents (fun _ _ => rfl), List.countP_true, length_selectEvents]

theorem count_cs_initializeEvents (c : Config) (S : ChipState) (l : Level) :
    (initializeEvents c S).count (.cs l) = initializeFrames c.framing := by
  rw [List.count, countP_initializeEvents_of_delay (fun _ _ => rfl) (fun _ _ => rfl)]
  cases l <;> simp

/-- Settles O41: the calls by their kinds, the framing by `initializeFrames`. -/
theorem initializeEventCounts : Obligations.InitializeEventCounts := by
  intro c S
  have hlength := length_initializeEvents c S
  refine ⟨length_sentBytes_initializeEvents c S, ?frames, fun hf => ?_, fun hf => ?_⟩
  case frames => exact (countP_initializeEvents_of_delay (fun _ _ => rfl) (fun _ _ => rfl) S).trans rfl
  all_goals
    rw [hf] at hlength
    simp only [count_cs_initializeEvents, hf]
    exact ⟨rfl, rfl, fun h => by simp [hlength, h, initializeFrames], fun h => by simp [hlength, h, initializeFrames]⟩

end Sys2Proof.Machine

/-! ### The bus discipline as a graph (R199)

The events that the discipline accepts, one edge each, between the places where a trace can stand. A trace that keeps
the discipline is a path from `released` to `released`; the properties (a) to (g) of R199 are read off the edges at an
event and those next to it.
-/

namespace Sys2Proof.Machine

/-- The event `e` leads from the place `q` to the place `r`. -/
inductive BusEdge (c : Config) : BusState → Event → BusState → Prop
  | select : BusEdge c .released (.cs .low) .selected
  | line (hconv : c.conv = .linear) : BusEdge c .released (.rst .low) .lineLow
  | first {a d : Byte} {k : Nat} (ha : observe c.conv a = .register k) : BusEdge c .selected (.tx [a, d]) .sent
  | reset {a d : Byte} (ha : observe c.conv a = .resetSignal) : BusEdge c .selected (.tx [a, d]) .resetSent
  | further {a d : Byte} {k : Nat} (hf : c.framing = .perGroup) (ha : observe c.conv a = .register k) :
    BusEdge c .sent (.tx [a, d]) .sent
  | release (ht : c.tSettle = 0) : BusEdge c .sent (.cs .high) .released
  | releaseSettling (ht : 0 < c.tSettle) : BusEdge c .sent (.cs .high) .settling
  | settle : BusEdge c .settling (.delay c.tSettle (unitOf c.conv)) .released
  | resetHold : BusEdge c .resetSent (.delay c.tResetShifted .us) .resetHeld
  | resetRelease : BusEdge c .resetHeld (.cs .high) .released
  | lineHold : BusEdge c .lineLow (.delay c.tResetLine .ms) .lineHeld
  | lineRelease : BusEdge c .lineHeld (.rst .high) .released

section Paths

variable {c : Config} {q r : BusState} {e : Event} {tr pre post : List Event}

theorem busEdge_of_firstFrame {a d : Byte} (h : firstFrame c a = some r) : BusEdge c .selected (.tx [a, d]) r := by
  unfold firstFrame at h
  split at h <;> cases h
  · exact .first ‹_›
  · exact .reset ‹_›

theorem busEdge_of_furtherFrame {a d : Byte} (h : furtherFrame c a = some r) : BusEdge c .sent (.tx [a, d]) r := by
  unfold furtherFrame at h
  split at h <;> cases h
  exact .further ‹_› ‹_›

theorem busEdge_afterWrite (c : Config) : BusEdge c .sent (.cs .high) (afterWrite c) := by
  unfold afterWrite
  split
  · exact .releaseSettling ‹_›
  · exact .release (by omega)

/-- The discipline accepts no event but these, -/
theorem busEdge_of_busNext (h : busNext c q e = some r) : BusEdge c q e r := by
  cases q with
  | released =>
    rcases e with (_ | _) | (_ | _) | p | ⟨n, u⟩
    case cs.low => cases h; exact .select
    case rst.low =>
      obtain ⟨hconv, ⟨⟩⟩ := Option.ite_none_right_eq_some.mp h
      exact .line hconv
    all_goals cases h
  | selected =>
    rcases e with l | l | (_ | ⟨a, _ | ⟨d, _ | _⟩⟩) | ⟨n, u⟩
    case tx.cons.cons.nil => exact busEdge_of_firstFrame h
    all_goals cases h
  | sent =>
    rcases e with (_ | _) | l | (_ | ⟨a, _ | ⟨d, _ | _⟩⟩) | ⟨n, u⟩
    case cs.high => cases h; exact busEdge_afterWrite c
    case tx.cons.cons.nil => exact busEdge_of_furtherFrame h
    all_goals cases h
  | settling =>
    cases e with
    | delay n u =>
      obtain ⟨⟨rfl, rfl⟩, ⟨⟩⟩ := Option.ite_none_right_eq_some.mp h
      exact .settle
    | _ => cases h
  | resetSent =>
    cases e with
    | delay n u =>
      obtain ⟨⟨rfl, rfl⟩, ⟨⟩⟩ := Option.ite_none_right_eq_some.mp h
      exact .resetHold
    | _ => cases h
  | resetHeld =>
    rcases e with (_ | _) | l | p | ⟨n, u⟩
    case cs.high => cases h; exact .resetRelease
    all_goals cases h
  | lineLow =>
    cases e with
    | delay n u =>
      obtain ⟨⟨rfl, rfl⟩, ⟨⟩⟩ := Option.ite_none_right_eq_some.mp h
      exact .lineHold
    | _ => cases h
  | lineHeld =>
    rcases e with l | (_ | _) | p | ⟨n, u⟩
    case rst.high => cases h; exact .lineRelease
    all_goals cases h

/-- and it accepts these. -/
theorem busNext_of_busEdge (h : BusEdge c q e r) : busNext c q e = some r := by
  cases h with
  | select | resetRelease | lineRelease => rfl
  | line hconv => simp [hconv]
  | first ha => simp [firstFrame, ha]
  | reset ha => simp [firstFrame, ha]
  | further hf ha => simp [furtherFrame, hf, ha]
  | release ht => simp [afterWrite, ht]
  | releaseSettling ht => simp [afterWrite, ht]
  | settle | resetHold | lineHold => simp

/-- A path through an event: one edge at it, a path before and one after. -/
theorem BusSafe.split (h : BusSafe c (pre ++ e :: post)) :
    ∃ q r, busRun c .released pre = some q ∧ BusEdge c q e r ∧ busRun c r post = some .released := by
  rw [BusSafe, busRun_append] at h
  obtain ⟨q, hpre, h⟩ := Option.bind_eq_some_iff.mp h
  obtain ⟨r, hedge, hpost⟩ := Option.bind_eq_some_iff.mp h
  exact ⟨q, r, hpre, busEdge_of_busNext hedge, hpost⟩

/-- The last event before a place other than `released`. -/
theorem exists_last_edge (h : busRun c .released pre = some r) (hr : r ≠ .released) :
    ∃ first e q, pre = first ++ [e] ∧ busRun c .released first = some q ∧ BusEdge c q e r := by
  obtain rfl | ⟨first, e, rfl⟩ := List.eq_nil_or_concat' pre
  · cases h
    exact absurd rfl hr
  · rw [busRun_append] at h
    obtain ⟨q, hfirst, h⟩ := Option.bind_eq_some_iff.mp h
    obtain ⟨r', hedge, h⟩ := Option.bind_eq_some_iff.mp h
    cases h
    exact ⟨first, e, q, rfl, hfirst, busEdge_of_busNext hedge⟩

/-- The next event after a place other than `released`: a trace does not end there. -/
theorem exists_next_edge (h : busRun c q post = some .released) (hq : q ≠ .released) :
    ∃ e r rest, post = e :: rest ∧ BusEdge c q e r ∧ busRun c r rest = some .released := by
  cases post with
  | nil =>
    cases h
    exact absurd rfl hq
  | cons e rest =>
    obtain ⟨r, hedge, hrest⟩ := Option.bind_eq_some_iff.mp h
    exact ⟨e, r, rest, rfl, busEdge_of_busNext hedge, hrest⟩

/-! What comes before a place. -/

theorem before_selected (h : busRun c .released pre = some .selected) : ∃ first, pre = first ++ [.cs .low] := by
  obtain ⟨first, e, q, rfl, -, hedge⟩ := exists_last_edge h (by simp)
  cases hedge
  exact ⟨first, rfl⟩

theorem before_lineLow (h : busRun c .released pre = some .lineLow) :
    c.conv = .linear ∧ ∃ first, pre = first ++ [.rst .low] := by
  obtain ⟨first, e, q, rfl, -, hedge⟩ := exists_last_edge h (by simp)
  cases hedge with
  | line hconv => exact ⟨hconv, first, rfl⟩

theorem before_lineHeld (h : busRun c .released pre = some .lineHeld) :
    c.conv = .linear ∧ ∃ first, pre = first ++ [.rst .low, .delay c.tResetLine .ms] := by
  obtain ⟨pre, e, q, rfl, hpre, hedge⟩ := exists_last_edge h (by simp)
  cases hedge
  obtain ⟨hconv, first, rfl⟩ := before_lineLow hpre
  exact ⟨hconv, first, by simp⟩

/-- Under `LINEAR` no address byte is a reset signal, so the reset frame is one of `SHIFTED`. -/
theorem before_resetSent (h : busRun c .released pre = some .resetSent) : c.conv = .shifted := by
  obtain ⟨_, _, _, -, -, hedge⟩ := exists_last_edge h (by simp)
  cases hedge with
  | reset ha =>
    cases hconv : c.conv with
    | linear => exact absurd (hconv ▸ ha) (observe_linear_ne_reset _)
    | shifted => rfl

/-! What comes after a place. -/

theorem after_lineLow (h : busRun c .lineLow post = some .released) :
    ∃ rest, post = .delay c.tResetLine .ms :: .rst .high :: rest := by
  obtain ⟨_, _, _, rfl, hedge, h⟩ := exists_next_edge h (by simp)
  cases hedge
  obtain ⟨_, _, rest, rfl, hedge, -⟩ := exists_next_edge h (by simp)
  cases hedge
  exact ⟨rest, rfl⟩

theorem after_resetSent (h : busRun c .resetSent post = some .released) :
    ∃ rest, post = .delay c.tResetShifted .us :: .cs .high :: rest := by
  obtain ⟨_, _, _, rfl, hedge, h⟩ := exists_next_edge h (by simp)
  cases hedge
  obtain ⟨_, _, rest, rfl, hedge, -⟩ := exists_next_edge h (by simp)
  cases hedge
  exact ⟨rest, rfl⟩

/-! The chip-select record along a path (R28). -/

/-- Where chip-select was last commanded low. -/
def BusState.csLow : BusState → Bool
  | .released | .settling | .lineLow | .lineHeld => false
  | .selected | .sent | .resetSent | .resetHeld => true

theorem BusEdge.csNext_eq_low_iff (h : BusEdge c q e r) {p : PinState} (hp : p = .driven .low ↔ q.csLow = true) :
    csNext p e = .driven .low ↔ r.csLow = true := by
  cases h with
  | select | release | releaseSettling | resetRelease => simp [csNext, BusState.csLow]
  | line | first | reset | further | settle | resetHold | lineHold | lineRelease => exact hp

theorem csAfter_eq_low_iff_of_busRun {es : List Event} (h : busRun c q es = some r) {p : PinState}
    (hp : p = .driven .low ↔ q.csLow = true) : csAfter p es = .driven .low ↔ r.csLow = true := by
  induction es generalizing q p with
  | nil => cases h; exact hp
  | cons e es ih =>
    obtain ⟨m, hedge, hes⟩ := Option.bind_eq_some_iff.mp h
    exact ih hes ((busEdge_of_busNext hedge).csNext_eq_low_iff hp)

/-- The record says whether the place is one with chip-select low. -/
theorem csAfter_eq_low_iff (h : busRun c .released pre = some q) :
    csAfter .undriven pre = .driven .low ↔ q.csLow = true :=
  csAfter_eq_low_iff_of_busRun h (by simp [BusState.csLow])

/-! The properties of R199, one by one. -/

/-- R199 (a) and (b): a transmission has two bytes and chip-select low. -/
theorem BusSafe.tx {p : List Byte} (h : BusSafe c (pre ++ .tx p :: post)) :
    p.length = 2 ∧ csAfter .undriven pre = .driven .low := by
  obtain ⟨q, r, hpre, hedge, -⟩ := h.split
  rw [csAfter_eq_low_iff hpre]
  cases hedge <;> exact ⟨rfl, rfl⟩

/-- R199 (c): the edges of chip-select alternate. -/
theorem BusSafe.cs {l : Level} (h : BusSafe c (pre ++ .cs l :: post)) :
    if l = .low then csAfter .undriven pre ≠ .driven .low else csAfter .undriven pre = .driven .low := by
  obtain ⟨q, r, hpre, hedge, -⟩ := h.split
  rw [Ne, csAfter_eq_low_iff hpre]
  cases hedge <;> simp [BusState.csLow]

/-- R199 (d): chip-select is never left low. -/
theorem BusSafe.cs_end (h : BusSafe c tr) : csAfter .undriven tr ≠ .driven .low := by
  rw [Ne, csAfter_eq_low_iff h]
  simp [BusState.csLow]

/-- R199 (e): the reset line belongs to `LINEAR`, -/
theorem BusSafe.conv_of_rst {l : Level} (h : BusSafe c tr) (hl : .rst l ∈ tr) : c.conv = .linear := by
  obtain ⟨pre, post, rfl⟩ := List.append_of_mem hl
  obtain ⟨q, r, hpre, hedge, -⟩ := h.split
  cases hedge with
  | line hconv => exact hconv
  | lineRelease => exact (before_lineHeld hpre).1

/-- where it is driven low and held, then released: from its first edge on, -/
theorem BusSafe.after_rst_low (h : BusSafe c (pre ++ .rst .low :: post)) :
    ∃ rest, post = .delay c.tResetLine .ms :: .rst .high :: rest := by
  obtain ⟨q, r, -, hedge, hpost⟩ := h.split
  cases hedge
  exact after_lineLow hpost

/-- and up to its second. -/
theorem BusSafe.before_rst_high (h : BusSafe c (pre ++ .rst .high :: post)) :
    ∃ first, pre = first ++ [.rst .low, .delay c.tResetLine .ms] := by
  obtain ⟨q, r, hpre, hedge, -⟩ := h.split
  cases hedge
  exact (before_lineHeld hpre).2

/-- R199 (f): an odd address byte is no register's, so the frame is the reset frame. -/
theorem BusSafe.around_reset_tx {a d : Byte} (h : BusSafe c (pre ++ .tx [a, d] :: post)) (hconv : c.conv = .shifted)
    (ha : a.getLsbD 0 = true) :
    (∃ first, pre = first ++ [.cs .low]) ∧ ∃ rest, post = .delay c.tResetShifted .us :: .cs .high :: rest := by
  have hreset : observe c.conv a = .resetSignal := hconv ▸ observe_shifted_eq_resetSignal_iff.mpr ha
  obtain ⟨q, r, hpre, hedge, hpost⟩ := h.split
  cases hedge with
  | first hregister | further _ hregister => rw [hreset] at hregister; cases hregister
  | reset => exact ⟨before_selected hpre, after_resetSent hpost⟩

/-- R199 (g): a delay of the other unit stands only after a place the convention does not reach. -/
theorem BusSafe.unit_of_delay {n : Nat} {u : DelayUnit} (h : BusSafe c tr) (hn : .delay n u ∈ tr) :
    u = unitOf c.conv := by
  obtain ⟨pre, post, rfl⟩ := List.append_of_mem hn
  obtain ⟨q, r, hpre, hedge, -⟩ := h.split
  cases hedge with
  | settle => rfl
  | resetHold => rw [before_resetSent hpre]; rfl
  | lineHold => rw [(before_lineLow hpre).1]; rfl

end Paths

/-- Settles O55: R199 (a) to (g) from the edges, and the bounds of R8 on the two reset delays. -/
theorem busDisciplineGivesR199AToG : Obligations.BusDisciplineGivesR199AToG := by
  intro c tr hwf h
  obtain ⟨hline, hshifted, -, -⟩ := Config.wf_iff.mp hwf
  refine ⟨?_, ?_, h.cs_end, fun l => h.conv_of_rst, ?_, ?_, ?_, fun n u => h.unit_of_delay⟩
  · rintro pre p post rfl
    exact h.tx
  · rintro pre l post rfl
    exact h.cs
  · rintro pre post rfl
    obtain ⟨rest, hrest⟩ := h.after_rst_low
    exact ⟨_, rest, hrest, hline⟩
  · rintro pre post rfl
    obtain ⟨first, hfirst⟩ := h.before_rst_high
    exact ⟨first, _, hfirst, hline⟩
  · rintro pre a d post hconv ha rfl
    obtain ⟨hpre, rest, hrest⟩ := h.around_reset_tx hconv ha
    exact ⟨hpre, _, rest, hrest, hshifted⟩

end Sys2Proof.Machine

/-! ### What a command answers (R106, R221, R225, R227)

An operand check decides on the operand alone. A command whose operands fail raises the range error and does nothing
else; any other command updates `S`, or makes calls that `S` and the configuration decide.
-/

namespace Sys2Proof.Machine

/-- The operand check `x` passes when `ok`, and answers a range error when not (R221). -/
inductive RangeCheck {α : Type} : Bool → Except CommandError α → Prop
  | passes (a : α) : RangeCheck true (.ok a)
  | fails (f : FieldId) (n : Nat) : RangeCheck false (.error (.rangeError f n))

theorem rangeCheck_voiceOf (v : BitVec 2) : RangeCheck (voiceOk v) (voiceOf v) := by
  have hv : ∀ v : BitVec 2, v = 0 ∨ v = 1 ∨ v = 2 ∨ v = 3 := by decide
  rcases hv v with rfl | rfl | rfl | rfl
  · exact .passes VoiceIx.v0
  · exact .passes VoiceIx.v1
  · exact .passes VoiceIx.v2
  · exact .fails .voiceIndex 3

theorem immOk_of_le {max : Nat} {imm : U16} (h : imm.toNat ≤ max) : immOk max imm = true :=
  decide_eq_true h

theorem immOk_of_gt {max : Nat} {imm : U16} (h : max < imm.toNat) : immOk max imm = false :=
  decide_eq_false (Nat.not_le.mpr h)

theorem rangeCheck_mkValue {n max : Nat} (hmax : max + 1 = 2 ^ n) (field : FieldId) (imm : U16) :
    RangeCheck (immOk max imm) (mkValue n field imm.toNat) := by
  rcases Nat.lt_or_ge max imm.toNat with himm | himm
  · rw [immOk_of_gt himm, mkValue_of_le field (by omega)]
    exact .fails field imm.toNat
  · rw [immOk_of_le himm, mkValue_imm field (by omega)]
    exact .passes _

theorem rangeCheck_shapeOperand (imm : U16) : RangeCheck (immOk 3 imm) (shapeOperand imm) := by
  rcases Nat.lt_or_ge 3 imm.toNat with himm | himm
  · rw [immOk_of_gt himm, shapeOperand, shapeOf_of_gt himm]
    exact .fails .shape imm.toNat
  · obtain ⟨shape, hshape⟩ := exists_shapeCode himm
    rw [immOk_of_le himm, shapeOperand, ← hshape, shapeOf_shapeCode]
    exact .passes shape

/-- `u` is the meaning of a command whose operands are in range exactly when `ok`, said for all states at once. Its calls
are those of the configuration and `S`; `SURFACE_ERRORS` has no part in them (R227). -/
inductive CommandMeaning (u : State → Host.Outcome State Fault Refusal) : Bool → Prop
  | raises (f : FieldId) (x : Nat) (hu : ∀ s, u s = .next (s.onlyResult (.err (.rangeError f x)))) :
      CommandMeaning u false
  | updates (g : ChipState → ChipState) (hu : ∀ s, u s = .next (s.afterSet (g s.chipState))) : CommandMeaning u true
  | calls (es : Config → ChipState → List Event) (hes : ∀ c S b, es { c with surfaceErrors := b } S = es c S)
      (hu : ∀ s, u s = .next (s.afterCalls (es s.cfg s.chipState))) : CommandMeaning u true

/-- An operand is checked before anything else of the command is done (R221). -/
theorem CommandMeaning.withOperand {α : Type} {ok ok' : Bool} {x : Except CommandError α}
    {u : State → Host.Outcome State Fault Refusal} {k : α → State → Host.Outcome State Fault Refusal}
    (hx : RangeCheck ok x) (hk : ∀ a, CommandMeaning (k a) ok')
    (hu : ∀ s, u s = Machine.withOperand x s fun a => k a s) : CommandMeaning u (ok && ok') := by
  cases hx with
  | fails f n => exact .raises f n hu
  | passes a =>
    obtain rfl : u = k a := funext hu
    exact hk a

theorem commandMeaning_updateVoice {α : Type} {ok : Bool} {v : BitVec 2} {x : Except CommandError α}
    {f : Voice → α → Voice} {u : State → Host.Outcome State Fault Refusal} (hx : RangeCheck ok x)
    (hu : ∀ s, u s = updateVoice v x f s) : CommandMeaning u (voiceOk v && ok) := by
  refine .withOperand (rangeCheck_voiceOf v) (fun ix => ?_) hu
  rw [← Bool.and_true ok]
  exact .withOperand hx (fun a => .updates (fun S => S.setVoice ix (f (S.voice ix) a)) fun _ => rfl) fun _ => rfl

theorem commandMeaning_updateFilter {α : Type} {ok : Bool} {x : Except CommandError α} {f : Filter → α → Filter}
    {u : State → Host.Outcome State Fault Refusal} (hx : RangeCheck ok x) (hu : ∀ s, u s = updateFilter x f s) :
    CommandMeaning u ok := by
  rw [← Bool.and_true ok]
  exact .withOperand hx (fun a => .updates (fun S => { S with filter := f S.filter a }) fun _ => rfl) hu

/-! The calls of a command do not depend on `SURFACE_ERRORS` (R227). -/

theorem frameEvents_surfaceErrors (c : Config) (b : Bool) (idx : Nat) (p : List Byte) :
    frameEvents { c with surfaceErrors := b } idx p = frameEvents c idx p := by
  induction p generalizing idx with
  | nil => rfl
  | cons d p ih => simp only [frameEvents, ih]

theorem registerEvents_surfaceErrors (c : Config) (b : Bool) (idx : Nat) (p : List Byte) :
    registerEvents { c with surfaceErrors := b } idx p = registerEvents c idx p := by
  induction p generalizing idx with
  | nil => rfl
  | cons d p ih => exact congrArg (writeRegEvents c idx d ++ ·) (ih (idx + 1))

theorem groupEvents_surfaceErrors (c : Config) (b : Bool) (g : Group) (p : List Byte) :
    groupEvents { c with surfaceErrors := b } g p = groupEvents c g p := by
  simp only [groupEvents, registerEvents_surfaceErrors, frameEvents_surfaceErrors]
  rfl

theorem voicesEvents_surfaceErrors (c : Config) (S : ChipState) (b : Bool) :
    voicesEvents { c with surfaceErrors := b } S = voicesEvents c S := by
  simp only [voicesEvents, groupEvents_surfaceErrors]

theorem initializeEvents_surfaceErrors (c : Config) (S : ChipState) (b : Bool) :
    initializeEvents { c with surfaceErrors := b } S = initializeEvents c S := by
  simp only [initializeEvents, voicesEvents_surfaceErrors, groupEvents_surfaceErrors]

theorem commandMeaning_sendGroup (g : Group) : CommandMeaning (fun s => finish s (sendGroup g s)) true :=
  .calls (fun c S => groupEvents c g (payloadOf S g)) (fun c S b => groupEvents_surfaceErrors c b g (payloadOf S g))
    fun s => finish_eq_afterCalls (emits_sendGroup g s) rfl rfl

/-- Every command has a meaning of one of the three kinds, and its operands are in range when it is well formed. -/
theorem exec_commandMeaning {i : Instr} (hi : i.conv? = none) : CommandMeaning (exec i) i.wellFormed := by
  cases i with
  | reset => exact .calls (fun c _ => resetEvents c) (fun _ _ _ => rfl) exec_reset_eq_afterCalls
  | writeVoice v =>
    rw [Instr.wellFormed, ← Bool.and_true (voiceOk v)]
    exact .withOperand (rangeCheck_voiceOf v) (fun ix => commandMeaning_sendGroup (.voice ix)) fun _ => rfl
  | writeFilter => exact commandMeaning_sendGroup .filter
  | writeAllVoices => exact .calls voicesEvents voicesEvents_surfaceErrors exec_writeAllVoices_eq_afterCalls
  | initializeChip => exact .calls initializeEvents initializeEvents_surfaceErrors exec_initializeChip_eq_afterCalls
  | setvFreq v imm =>
    rw [Instr.wellFormed, ← Bool.and_true (voiceOk v)]
    exact commandMeaning_updateVoice (.passes imm) (exec_setvFreq v imm)
  | setvPw v imm => exact commandMeaning_updateVoice (rangeCheck_mkValue rfl .pw imm) (exec_setvPw v imm)
  | setvAttack v imm => exact commandMeaning_updateVoice (rangeCheck_mkValue rfl .attack imm) (exec_setvAttack v imm)
  | setvDecay v imm => exact commandMeaning_updateVoice (rangeCheck_mkValue rfl .decay imm) (exec_setvDecay v imm)
  | setvSustain v imm => exact commandMeaning_updateVoice (rangeCheck_mkValue rfl .sustain imm) (exec_setvSustain v imm)
  | setvRelease v imm => exact commandMeaning_updateVoice (rangeCheck_mkValue rfl .release imm) (exec_setvRelease v imm)
  | setvShape v imm => exact commandMeaning_updateVoice (rangeCheck_shapeOperand imm) (exec_setvShape v imm)
  | setvCflags v imm => exact commandMeaning_updateVoice (rangeCheck_mkValue rfl .cflags imm) (exec_setvCflags v imm)
  | setvCflagsAdd v imm =>
    exact commandMeaning_updateVoice (rangeCheck_mkValue rfl .cflags imm) (exec_setvCflagsAdd v imm)
  | setvCflagsRemove v imm =>
    exact commandMeaning_updateVoice (rangeCheck_mkValue rfl .cflags imm) (exec_setvCflagsRemove v imm)
  | setfCutoff imm => exact commandMeaning_updateFilter (rangeCheck_mkValue rfl .cutoff imm) (exec_setfCutoff imm)
  | setfRes imm => exact commandMeaning_updateFilter (rangeCheck_mkValue rfl .res imm) (exec_setfRes imm)
  | setfVol imm => exact commandMeaning_updateFilter (rangeCheck_mkValue rfl .vol imm) (exec_setfVol imm)
  | setfMode imm => exact commandMeaning_updateFilter (rangeCheck_mkValue rfl .mode imm) (exec_setfMode imm)
  | setfModeAdd imm => exact commandMeaning_updateFilter (rangeCheck_mkValue rfl .mode imm) (exec_setfModeAdd imm)
  | setfModeRemove imm => exact commandMeaning_updateFilter (rangeCheck_mkValue rfl .mode imm) (exec_setfModeRemove imm)
  | setfTargets imm => exact commandMeaning_updateFilter (rangeCheck_mkValue rfl .targets imm) (exec_setfTargets imm)
  | setfTargetsAdd imm =>
    exact commandMeaning_updateFilter (rangeCheck_mkValue rfl .targets imm) (exec_setfTargetsAdd imm)
  | setfTargetsRemove imm =>
    exact commandMeaning_updateFilter (rangeCheck_mkValue rfl .targets imm) (exec_setfTargetsRemove imm)
  | _ => cases hi

end Sys2Proof.Machine

/-! ### Errors (R220 to R230) -/

namespace Sys2Proof.Machine

/-- Settles O7: the command word is fetched, is no instruction, and raises; the counter moves on after it. -/
theorem stepRaisesIllegalCommand : Obligations.StepRaisesIllegalCommand := by
  intro s w r hwf hdue hphase hw hd
  exact step_of_decodeSlot_error hwf ((insideCommand_eq_transient hdue).trans hphase) (fetch_of_program hdue hw) hd

/-- The calls of a command never answer a range error (R227). -/
theorem callResult_ne_rangeError (s : State) (es : List Event) (f : FieldId) (x : Nat) :
    callResult s es ≠ .err (.rangeError f x) := by
  unfold callResult
  split <;> simp

/-- A range error is the answer of operands out of range and of nothing else, and it is all that happens. -/
theorem CommandMeaning.of_rangeError {u : State → Host.Outcome State Fault Refusal} {ok : Bool}
    (h : CommandMeaning u ok) {s t : State} {f : FieldId} {x : Nat} (ht : u s = .next t)
    (hr : t.results = s.results ++ [.err (.rangeError f x)]) :
    ok = false ∧ t = s.onlyResult (.err (.rangeError f x)) := by
  cases h with
  | raises f' x' hu =>
    cases (hu s).symm.trans ht
    have hlast := List.append_cancel_left hr
    exact ⟨rfl, by rw [List.singleton_inj.mp hlast]⟩
  | updates g hu =>
    cases (hu s).symm.trans ht
    simp [State.afterSet] at hr
  | calls es hes hu =>
    cases (hu s).symm.trans ht
    exact absurd (List.singleton_inj.mp (List.append_cancel_left hr)) (callResult_ne_rangeError s _ f x)

/-- A frame row is a part of a command, whose result is not its own (log entry 4). -/
theorem results_of_frame {i : Instr} {conv : Conv} {s t : State} (hi : i.conv? = some conv)
    (h : exec i s = .next t) : t.results = s.results := by
  have hframe := exec_effect h
  rw [Effect, hi] at hframe
  obtain ⟨es, he⟩ := hframe.emits
  exact he.results

/-- Settles O21: of a command `CommandMeaning.of_rangeError` says it; a frame row delivers no result. -/
theorem rangeErrorChangesNothing : Obligations.RangeErrorChangesNothing := by
  intro i s t f x ht hr
  cases hi : i.conv? with
  | none => exact ((exec_commandMeaning hi).of_rangeError ht hr).2
  | some conv =>
    simp [results_of_frame hi ht] at hr

theorem CommandMeaning.exists_rangeError {u : State → Host.Outcome State Fault Refusal}
    (h : CommandMeaning u false) (s : State) : ∃ f x, u s = .next (s.onlyResult (.err (.rangeError f x))) := by
  cases h with
  | raises f x hu => exact ⟨f, x, hu s⟩

/-- Settles O22: the operand checks of a command are those of `Instr.wellFormed` (`exec_commandMeaning`). -/
theorem rangeErrorExactlyWhenIllFormed : Obligations.RangeErrorExactlyWhenIllFormed := by
  intro i s hi
  have h := exec_commandMeaning hi
  constructor
  · rintro ⟨f, x, ht⟩
    exact (h.of_rangeError ht rfl).1
  · intro hill
    rw [hill] at h
    exact h.exists_rangeError s

/-- Every row of `SETV.*` checks its voice index first (R228). -/
theorem exec_voiceField_three (imm : U16) (s : State) : ∀ f ∈ voiceFields,
    exec (f 3 imm) s = .next (s.onlyResult (.err (.rangeError .voiceIndex 3))) := by
  simp only [voiceFields, List.forall_mem_cons, exec_setvFreq, exec_setvPw, exec_setvAttack, exec_setvDecay,
    exec_setvSustain, exec_setvRelease, exec_setvShape, exec_setvCflags, exec_setvCflagsAdd, exec_setvCflagsRemove,
    updateVoice_three, List.not_mem_nil, false_implies, implies_true, and_true]

/-- Settles O23: `OP` 2 is `WRITE_VOICE`, `OP` 6 a row of the voice fields. -/
theorem voiceIndexErrorComesFirst : Obligations.VoiceIndexErrorComesFirst := by
  intro s w i hd hop hv
  obtain ⟨-, hrow⟩ := decodeCommand_ok hd
  rcases hop with hop | hop
  · have hdecode : decodeWriteVoice w = .ok i := by simpa [hop] using hrow
    obtain ⟨-, -, rfl⟩ := decodeWriteVoice_ok hdecode
    rw [hv]
    rfl
  · have hdecode : decodeSetv w = .ok i := by simpa [hop] using hrow
    obtain ⟨f, hf, rfl⟩ := decodeSetv_ok hdecode
    rw [hv]
    exact exec_voiceField_three (immField w) s f (List.mem_of_getElem? hf)

/-- Whether one of the calls `es` failed, by its place in the trace that ends with them (R225). -/
theorem anyCallFailed_iff (pre es : List Event) :
    anyCallFailed pre.length es = true ↔
      ∃ n e, pre.length ≤ n ∧ (pre ++ es)[n]? = some e ∧ fallible e = true ∧ Config.callFails n = true := by
  induction es generalizing pre with
  | nil =>
    simp only [anyCallFailed, List.append_nil, Bool.false_eq_true, false_iff]
    rintro ⟨n, e, hn, he, -⟩
    exact absurd (List.getElem?_eq_some_iff.mp he).1 (Nat.not_lt.mpr hn)
  | cons e es ih =>
    have hlater := ih (pre ++ [e])
    rw [List.length_append, List.length_singleton, List.append_assoc, List.singleton_append] at hlater
    rw [anyCallFailed, Bool.or_eq_true, Bool.and_eq_true, hlater]
    constructor
    · rintro (⟨hcall, hfails⟩ | ⟨n, e', hn, hrest⟩)
      · exact ⟨pre.length, e, le_rfl, by simp, hcall, hfails⟩
      · exact ⟨n, e', by omega, hrest⟩
    · rintro ⟨n, e', hn, he, hcall, hfails⟩
      rcases hn.eq_or_lt with rfl | hlt
      · obtain rfl : e = e' := by simpa using he
        exact .inl ⟨hcall, hfails⟩
      · exact .inr ⟨n, e', hlt, he, hcall, hfails⟩

theorem callResult_eq_transportError_iff (s : State) (es : List Event) :
    callResult s es = .err .transportError ↔
      s.cfg.surfaceErrors = true ∧ anyCallFailed s.trace.length es = true := by
  simp [callResult]

/-- The result and the calls of a command (R227): with no call made, none failed. -/
theorem CommandMeaning.transportError_iff {u : State → Host.Outcome State Fault Refusal} {ok : Bool}
    (h : CommandMeaning u ok) {s t : State} (ht : u s = .next t) :
    ∃ es, t.trace = s.trace ++ es ∧ (t.results = s.results ++ [.err .transportError] ↔
      s.cfg.surfaceErrors = true ∧ anyCallFailed s.trace.length es = true) := by
  cases h with
  | raises f x hu =>
    cases (hu s).symm.trans ht
    exact ⟨[], (List.append_nil _).symm, by simp [State.onlyResult, anyCallFailed]⟩
  | updates g hu =>
    cases (hu s).symm.trans ht
    exact ⟨[], (List.append_nil _).symm, by simp [State.afterSet, anyCallFailed]⟩
  | calls es hes hu =>
    cases (hu s).symm.trans ht
    exact ⟨_, rfl, by simp [State.afterCalls, callResult_eq_transportError_iff]⟩

/-- Settles O43: the calls of the command are what it appended to the trace. -/
theorem transportErrorExactlyWhenSurfacedFailure : Obligations.TransportErrorExactlyWhenSurfacedFailure := by
  intro i s t hi ht
  obtain ⟨es, htrace, hiff⟩ := (exec_commandMeaning hi).transportError_iff ht
  rw [hiff, htrace, anyCallFailed_iff]

/-- With the other value of `SURFACE_ERRORS` a command does what it did, but for its result (R227). -/
theorem CommandMeaning.surfaceErrors {u : State → Host.Outcome State Fault Refusal} {ok : Bool}
    (h : CommandMeaning u ok) {s t : State} (ht : u s = .next t) (b : Bool) :
    ∃ r, u (s.setCfg { s.cfg with surfaceErrors := b }) =
      .next { t with cfg := { s.cfg with surfaceErrors := b }, results := s.results ++ [r] } := by
  cases h with
  | raises f x hu =>
    cases (hu s).symm.trans ht
    exact ⟨_, hu _⟩
  | updates g hu =>
    cases (hu s).symm.trans ht
    exact ⟨_, hu _⟩
  | calls es hes hu =>
    cases (hu s).symm.trans ht
    refine ⟨callResult (s.setCfg { s.cfg with surfaceErrors := b }) (es s.cfg s.chipState), ?_⟩
    rw [hu, State.setCfg_cfg, hes]
    rfl

/-- A frame row does not read `SURFACE_ERRORS`. -/
theorem frameAnswer_surfaceErrors {conv : Conv} {own : Bool} {p : Phase} {f : FrameWord} {s t : State}
    (h : frameAnswer conv own p f s = .next t) (b : Bool) :
    frameAnswer conv own p f (s.setCfg { s.cfg with surfaceErrors := b }) =
      .next { t with cfg := { s.cfg with surfaceErrors := b } } := by
  unfold frameAnswer at h
  split_ifs at h with hconv hown hat
  cases h
  exact (if_neg hconv).trans ((if_neg hown).trans (if_pos hat))

theorem ownFrame_surfaceErrors (i : Instr) (c : Config) (b : Bool) :
    ownFrame i { c with surfaceErrors := b } = ownFrame i c := rfl

/-- A frame row is a word of the frame table (R76, R77). -/
theorem exists_encode_frame {i : Instr} {conv : Conv} (hi : i.conv? = some conv) : ∃ f, encode i = .frame f := by
  cases i <;> cases hi <;> exact ⟨_, rfl⟩

/-- Settles O44: a command by `CommandMeaning.surfaceErrors`, a frame row by `frameAnswer_surfaceErrors`. -/
theorem surfaceErrorsChangesTheResultOnly : Obligations.SurfaceErrorsChangesTheResultOnly := by
  intro i s t b ht
  cases hi : i.conv? with
  | none =>
    obtain ⟨r, hr⟩ := (exec_commandMeaning hi).surfaceErrors ht b
    exact ⟨[r], hr, rfl⟩
  | some conv =>
    have hresults := results_of_frame hi ht
    obtain ⟨f, hf⟩ := exists_encode_frame hi
    rw [exec_frame hi hf] at ht
    refine ⟨[], ?_, rfl⟩
    rw [exec_frame hi hf, State.setCfg_cfg, ownFrame_surfaceErrors, frameAnswer_surfaceErrors ht, List.append_nil,
      ← hresults]

end Sys2Proof.Machine

/-! ### What the chip holds (R57, R226, R254)

The premises of a claim about the real chip, written out; where they hold, `State.chipContent` is the image, and what
the write commands do to the image they do to the chip.
-/

namespace Sys2Proof.Machine

theorem Environment.longEnough_iff {env : Environment} {n : Nat} {e : Event} :
    env.longEnough n e = true ↔ ∀ k u, e = .delay k u → k ≤ env.blocked n := by
  cases e <;> simp [Environment.longEnough]

/-- P5, call by call. -/
theorem Environment.callsReturn_iff {env : Environment} {n : Nat} {es : List Event} :
    env.callsReturn n es = true ↔
      ∀ m e, es[m]? = some e → env.returns (n + m) = true ∧ env.longEnough (n + m) e = true := by
  induction es generalizing n with
  | nil => simp [Environment.callsReturn]
  | cons e es ih =>
    have hplace (m : Nat) : n + 1 + m = n + (m + 1) := Nat.add_right_comm n 1 m
    rw [Environment.callsReturn, Bool.and_eq_true, Bool.and_eq_true, ih]
    simp only [hplace]
    constructor
    · rintro ⟨hfirst, hrest⟩ (_ | m) e' he
      · obtain rfl : e = e' := by simpa using he
        exact hfirst
      · exact hrest m e' he
    · exact fun h => ⟨h 0 e rfl, fun m e' he => h (m + 1) e' he⟩

/-- P3 speaks of a `LINEAR` block only (R254). -/
theorem Environment.resetHigh_iff {env : Environment} {c : Config} :
    env.resetHigh c = true ↔ (c.conv = .linear → env.resetLevel = .high) := by
  cases hconv : c.conv <;> simp [Environment.resetHigh, hconv]

theorem Environment.transportSuits_iff {env : Environment} :
    env.transportSuits = true ↔ ∃ f, env.transport = some f ∧ f ∈ env.device.formats := by
  cases htransport : env.transport <;> simp [Environment.transportSuits, htransport]

/-- P1 to P6, written out (R254). -/
theorem launchPremises_iff {env : Environment} {s : State} :
    launchPremises env s = true ↔
      env.foreignCalls = [] ∧ env.selectLevel = .high ∧ (s.cfg.conv = .linear → env.resetLevel = .high) ∧
        (∃ f, env.transport = some f ∧ f ∈ env.device.formats) ∧
        (∀ n e, s.trace[n]? = some e → env.returns n = true ∧ ∀ k u, e = .delay k u → k ≤ env.blocked n) ∧
        s.cfg.conv = env.device.conv ∧ s.cfg.framing = env.device.framing ∧ s.cfg.tSettle = env.device.settle ∧
        s.cfg.resetFrameIndex = env.device.resetIndex ∧ s.cfg.resetFrameData = env.device.resetData := by
  simp only [launchPremises, Environment.exclusive, Environment.selectHigh, Environment.deviceMatches, Bool.and_eq_true,
    decide_eq_true_eq, List.isEmpty_iff, Environment.resetHigh_iff, Environment.transportSuits_iff,
    Environment.callsReturn_iff, Environment.longEnough_iff, Nat.zero_add, and_assoc]

/-- The premise of R226, as the test that a result is computed by (R227). -/
theorem State.noCallFailed_iff {s : State} : s.NoCallFailed ↔ anyCallFailed 0 s.trace = false := by
  have hfailed := anyCallFailed_iff [] s.trace
  simp only [List.length_nil, Nat.zero_le, List.nil_append, true_and] at hfailed
  rw [← Bool.not_eq_true, hfailed]
  simp [State.NoCallFailed]

/-- No call of a run's beginning failed if none of the run did. -/
theorem State.NoCallFailed.of_append {s t : State} {es : List Event} (h : t.NoCallFailed)
    (htrace : t.trace = s.trace ++ es) : s.NoCallFailed := by
  rw [State.noCallFailed_iff, htrace, anyCallFailed_append, Bool.or_eq_false_iff] at h
  exact State.noCallFailed_iff.mpr h.1

theorem chipContent_of_not_premises {env : Environment} {s : State}
    (h : ¬ (launchPremises env s = true ∧ s.NoCallFailed ∧ frameOpen s.trace = false)) (k : Nat) :
    s.chipContent env k = none := by
  rw [State.noCallFailed_iff] at h
  refine if_neg fun hall => h ?_
  simpa [and_assoc] using hall

/-- What the image does not know is not claimed of the chip, on the premises or without them. -/
theorem chipContent_of_read_none {s : State} {k : Nat} (h : Memory.read k s.chip = none) (env : Environment) :
    s.chipContent env k = none := by
  rw [State.chipContent, h, ite_self]

/-! On the premises, with calls `es` that release every frame: one that was open before them is closed by them. -/

section Claimed

variable {env : Environment} {s : State} {es : List Event} (hlaunch : launchPremises env (s.afterCalls es) = true)
  (hcalls : (s.afterCalls es).NoCallFailed) (hclosed : ∀ b, openAfter b es = false)

include hlaunch hcalls hclosed

theorem chipContent_afterCalls (k : Nat) :
    (s.afterCalls es).chipContent env k = Memory.read k (s.afterCalls es).chip :=
  chipContent_of_premises hlaunch (State.noCallFailed_iff.mp hcalls) ((frameOpen_append s.trace es).trans (hclosed _)) k

/-- A register whose entry the calls leave holds that entry; the premises held before the calls too, so that it is what
the chip held there, if no frame was open. -/
theorem chipContent_afterCalls_of_kept {k : Nat} (hkept : Memory.read k (s.afterCalls es).chip = Memory.read k s.chip) :
    (s.afterCalls es).chipContent env k = Memory.read k s.chip ∧
      (frameOpen s.trace = false → (s.afterCalls es).chipContent env k = s.chipContent env k) := by
  have hentry := (chipContent_afterCalls hlaunch hcalls hclosed k).trans hkept
  refine ⟨hentry, fun hopen => hentry.trans (chipContent_of_premises ?_ ?_ hopen k).symm⟩
  · exact launchPremises_of_append hlaunch rfl rfl
  · exact State.noCallFailed_iff.mp (hcalls.of_append rfl)

end Claimed

theorem openAfter_sendGroup (c : Config) (S : ChipState) (g : Group) (b : Bool) :
    openAfter b (groupEvents c g (payloadOf S g)) = false :=
  openAfter_groupEvents c g (payloadOf_ne_nil S g) b

/-- After one group write the chip holds the payload in the group's registers, and elsewhere what it held. -/
theorem chipContent_after_groupEvents {env : Environment} {s : State} {g : Group}
    (hlaunch : launchPremises env (s.afterCalls (groupEvents s.cfg g (payloadOf s.chipState g))) = true)
    (hcalls : (s.afterCalls (groupEvents s.cfg g (payloadOf s.chipState g))).NoCallFailed) :
    let t := s.afterCalls (groupEvents s.cfg g (payloadOf s.chipState g))
    (∀ i, i < (payloadOf s.chipState g).length → t.chipContent env (indexOf g i) = (payloadOf s.chipState g)[i]?) ∧
      ∀ k, (∀ i, i < (payloadOf s.chipState g).length → k ≠ indexOf g i) →
        t.chipContent env k = Memory.read k s.chip ∧
          (frameOpen s.trace = false → t.chipContent env k = s.chipContent env k) := by
  have hclosed := openAfter_sendGroup s.cfg s.chipState g
  obtain ⟨-, -, hread, hkeep⟩ := afterCalls_groupEvents s g rfl
  exact ⟨fun i hi => (chipContent_afterCalls hlaunch hcalls hclosed _).trans (hread i hi),
    fun k hk => chipContent_afterCalls_of_kept hlaunch hcalls hclosed (hkeep k hk)⟩

/-- The last group write of `WRITE_ALL_VOICES` releases every frame. -/
theorem openAfter_voicesEvents (c : Config) (S : ChipState) (b : Bool) : openAfter b (voicesEvents c S) = false := by
  rw [voicesEvents, openAfter_append]
  exact openAfter_sendGroup c S (.voice .v2) _

/-- So does that of `INITIALIZE`. -/
theorem openAfter_initializeEvents (c : Config) (S : ChipState) (b : Bool) :
    openAfter b (initializeEvents c S) = false := by
  rw [initializeEvents, openAfter_append]
  exact openAfter_sendGroup c S .filter _

theorem eq_of_next {x : Host.Outcome State Fault Refusal} {t u : State} (h : x = .next t) (hu : x = .next u) : t = u :=
  Host.Outcome.next.inj (h.symm.trans hu)

/-- Either way of `RESET` makes every entry of the image unknown (R195, R57). -/
theorem chip_of_reset {s t : State} (h : exec .reset s = .next t) : t.chip = [] := by
  cases hconv : s.cfg.conv with
  | linear =>
    obtain ⟨hexec, -⟩ := resetUnderLinearPulsesTheLine s hconv
    rw [eq_of_next h hexec]
  | shifted =>
    obtain ⟨hexec, -⟩ := resetUnderShiftedSendsTheResetFrame s hconv
    rw [eq_of_next h hexec]

/-- A frame row leaves its frame open: `CS(HIGH)` is another call of the command under way (R57). -/
theorem frameOpen_of_frame {i : Instr} {s t : State} (hi : i.conv? ≠ none) (h : exec i s = .next t) :
    frameOpen t.trace = true := by
  obtain ⟨conv, hconv⟩ := Option.ne_none_iff_exists'.mp hi
  have hframe := exec_effect h
  rw [Effect, hconv] at hframe
  obtain ⟨a, d, -, -, -, rfl⟩ := hframe
  exact frameOpen_concat_tx s.trace [a, d]

/-- Settles O60: on the premises the content is the image, which the lemmas about each command tell. -/
theorem chipContentOnThePremises : Obligations.ChipContentOnThePremises := by
  intro env s t
  refine ⟨launchPremises_iff, fun hlaunch hcalls => ⟨fun h => ?wholeChip, fun ix h => ?voice, fun h => ?filter,
    fun h => ?allVoices, fun h k => ?reset⟩, chipContent_of_not_premises, fun i hi h => ?frame,
    fun h => h.bus.frameOpen⟩
  case wholeChip =>
    obtain ⟨hexec, -, -, hread, -⟩ := initializeMakesTheImageMatchTheState s
    obtain rfl := eq_of_next h hexec
    intro k hk
    obtain ⟨b, hbyte, himage⟩ := hread k hk
    rw [chipContent_afterCalls hlaunch hcalls (openAfter_initializeEvents s.cfg s.chipState), himage, hbyte]
  case voice =>
    obtain rfl := eq_of_next h (exec_writeVoice_eq_afterCalls ix s)
    exact chipContent_after_groupEvents hlaunch hcalls
  case filter =>
    obtain rfl := eq_of_next h (exec_writeFilter_eq_afterCalls s)
    exact chipContent_after_groupEvents hlaunch hcalls
  case allVoices =>
    obtain ⟨hexec, -, -, hread, hkeep⟩ := writeAllVoicesSendsTwentyOneRegisters s
    obtain rfl := eq_of_next h hexec
    have hclosed := openAfter_voicesEvents s.cfg s.chipState
    exact ⟨fun k hk => (chipContent_afterCalls hlaunch hcalls hclosed k).trans (hread k hk),
      fun k hk => chipContent_afterCalls_of_kept hlaunch hcalls hclosed (hkeep k hk)⟩
  case reset => exact chipContent_of_read_none (by rw [chip_of_reset h]; rfl) env
  case frame =>
    have hopen := frameOpen_of_frame hi h
    exact ⟨hopen, chipContent_of_frameOpen hopen⟩

end Sys2Proof.Machine
